-- ==== Sys2Proof/Word.lean ====
section
/-! DEFINITION. The byte, the 24-bit flash address and the identifier. -/

namespace Sys2Proof

/-- A byte (`00_scope.md` R7). -/
abbrev Byte := BitVec 8

/-- A flash address: 24 bits (`00_scope.md` R4, `ADDR_BITS`). -/
abbrev Addr := BitVec 24

/-- A JEDEC identifier: 24 bits (`10_state.md` R29). -/
abbrev JedecId := BitVec 24

end Sys2Proof
end

