-- ==== Sys2Proof/Config.lean ====
section
/-! DEFINITION. The constants of the source, the parameters it leaves open (a record), and the free values (no body). -/

namespace Sys2Proof

/-- The four delay parameters (`00_scope.md` R5, `60_exceptions.md` R155). An event carries the NAME (D3). -/
inductive DelayParam
  | tPp
  | tSe
  | tCe
  | tRst
  deriving DecidableEq, Repr

namespace Config

/-- `PAGE_SIZE` (`00_scope.md` R4). -/
abbrev pageSize : Nat := 256

/-- `PAGES_PER_SECTOR` (`00_scope.md` R4). -/
abbrev pagesPerSector : Nat := 16

/-- `SECTOR_SIZE` (`00_scope.md` R4). -/
abbrev sectorSize : Nat := 4096

/-- `ID_BYTES` (`00_scope.md` R4). -/
abbrev idBytes : Nat := 3

/-- The milliseconds of a delay parameter. DESIGN CHOICE (D3, log 8): OPEN in the spec, so a constant without a body. -/
opaque delayMs : DelayParam → Nat

/-- Free value: `ID` after a `read_id` that did not finish with `Ok` (`10_state.md` R29, D25, log 15). -/
opaque freeId : Nat → JedecId

/-- Free value: byte `i` of `DST` after a failed read (`60_exceptions.md` R148, D19, log 15). -/
opaque freeDst : Nat → Nat → Byte

/-- Free value: byte `i` of a response to which `20_memory.md` R63 gives no value (log 30). -/
opaque freeRx : Nat → Nat → Byte

/-- Free value: the flash byte at an address that is indeterminate (`20_memory.md` R48, U1, U17, log 17). -/
opaque freeFlash : Nat → Nat → Byte

/-- Free value: whether the device is busy after a frame that may have been executed (`20_memory.md` R48, log 17). -/
opaque freeBusy : Nat → Bool

/-- Free value: the write-enable latch where it is indeterminate (`60_exceptions.md` R149, U2, U16, log 17). -/
opaque freeWel : Nat → Bool

end Config

/-- The parameters of a machine (`00_scope.md` R5, `10_state.md` R32): no operation changes them. -/
structure Params where
  /-- `TOTAL_SECTORS`. -/
  totalSectors : Nat
  /-- `OPW`, the width in bits of the operand registers and of `CMD` (`10_state.md` R22, R23). -/
  opw : Nat
  /-- `DUMMY_BYTE`. -/
  dummy : Byte
  /-- `DESELECT_ON_FAIL`. -/
  deselectOnFail : Bool
  /-- `DEVICE_ID`, what the device stub answers to read-id. -/
  deviceId : JedecId
  deriving DecidableEq, Repr

/-- `TOTAL_BYTES = TOTAL_SECTORS * SECTOR_SIZE` (`00_scope.md` R6, D2). -/
abbrev Params.totalBytes (p : Params) : Nat := p.totalSectors * Config.sectorSize

/-- The constraints of `00_scope.md` R6: at least one sector, and every byte has a 24-bit address. DEDUCED (log 10): `CMD` has room for
its field `OP`, bits 2:0 (`10_state.md` R23). -/
abbrev Params.wf (p : Params) : Prop := 1 ≤ p.totalSectors ∧ p.totalBytes ≤ 2 ^ 24 ∧ 3 ≤ p.opw

/-- What a register of `OPW` bits holds of a number written to it: its low `OPW` bits. DESIGN CHOICE (log 10): the spec names no wider
write. -/
abbrev Params.hold (p : Params) (v : Nat) : Nat := v % 2 ^ p.opw

/-- The defaults of `00_scope.md` R5. PRESUMED (D1, D26, log 7): 4096 sectors and `0xEF4018` are those of the W25Q128 family;
DESIGN CHOICE (D4, D5, D8, log 9, 10, 11): the dummy byte, the
operand width and the deselection after a failed call. -/
def Params.default : Params where
  totalSectors := 4096
  opw := 32
  dummy := 0x00
  deselectOnFail := true
  deviceId := 0xEF4018

end Sys2Proof
end

