-- ==== Sys2Proof/Syntax.lean ====
section
/-! DEFINITION. The instruction set whole: the ten wire instructions and the eight host operations, one constructor a row. -/

namespace Sys2Proof

/-- The host operations (`30_encoding.md` R80), what the register `OP` holds. -/
inductive Op
  | reset
  | readId
  | read
  | fastRead
  | eraseSector
  | eraseChip
  | write
  | init
  deriving DecidableEq, Repr

/-- The rows of spec/opcode_table.json. A wire instruction carries what its frame carries (`30_encoding.md` R71); a host operation
carries nothing, since its operands stand in the operand registers (`10_state.md` R22). -/
inductive Instr
  /-- `WREN`, write-enable (`40_wire_instructions.md` R91). -/
  | wren
  /-- `WRDI`, write-disable (R92). -/
  | wrdi
  /-- `RSTEN`, enable-reset: byte 0 of the reset frame (R93). -/
  | rsten
  /-- `RST`, reset-device: byte 1 of the reset frame (R94). -/
  | rst
  /-- `RDID`, read-JEDEC-id (R95). -/
  | rdid
  /-- `READ`, read-data (R96). -/
  | read (addr : Addr)
  /-- `FREAD`, fast-read, with its dummy byte (R97). -/
  | fread (addr : Addr) (dummy : Byte)
  /-- `PP`, page-program, with its payload (R98). -/
  | pp (addr : Addr) (payload : List Byte)
  /-- `SE`, sector-erase (R99). -/
  | se (addr : Addr)
  /-- `CE`, chip-erase (R100). -/
  | ce
  /-- `reset` (`43_facade_ops.md` R126). -/
  | opReset
  /-- `read_id` (R127). -/
  | opReadId
  /-- `read` (R128). -/
  | opRead
  /-- `fast_read` (R129). -/
  | opFastRead
  /-- `erase_sector` (R130). -/
  | opEraseSector
  /-- `erase_chip` (R131). -/
  | opEraseChip
  /-- `write` (`42_page_write.md` R110). -/
  | opWrite
  /-- `init` (`43_facade_ops.md` R125). -/
  | opInit
  deriving DecidableEq, Repr

/-- The instruction that a host operation is. -/
def Op.toInstr : Op → Instr
  | .reset => .opReset
  | .readId => .opReadId
  | .read => .opRead
  | .fastRead => .opFastRead
  | .eraseSector => .opEraseSector
  | .eraseChip => .opEraseChip
  | .write => .opWrite
  | .init => .opInit

end Sys2Proof
end

