-- ==== Sys2Proof/WellFormed.lean ====
section
/-! DEFINITION. The operand conditions of the wire instructions. -/

namespace Sys2Proof

/-- The conditions on an instruction's operands that do not depend on the device's size: a `PP` payload of 1 to 256 bytes inside
one page (`40_wire_instructions.md` R98), an `SE` address that begins a sector (R99). Every other instruction is well formed. -/
def Instr.wf : Instr → Bool
  | .pp a d => decide (1 ≤ d.length) && decide (d.length ≤ Config.pageSize) && decide (a.toNat % 256 + d.length ≤ Config.pageSize)
  | .se a => decide (a.toNat % Config.sectorSize = 0)
  | .wren => true
  | .wrdi => true
  | .rsten => true
  | .rst => true
  | .rdid => true
  | .read _ => true
  | .fread _ _ => true
  | .ce => true
  | .opReset => true
  | .opReadId => true
  | .opRead => true
  | .opFastRead => true
  | .opEraseSector => true
  | .opEraseChip => true
  | .opWrite => true
  | .opInit => true

/-- The operand condition that depends on the device's size: the address of a `PP` or an `SE` exists
(`40_wire_instructions.md` R98, R99, `20_memory.md` R50). -/
def Instr.fits (p : Params) : Instr → Bool
  | .pp a _ => decide (a.toNat < p.totalBytes)
  | .se a => decide (a.toNat < p.totalBytes)
  | _ => true

end Sys2Proof
end

