-- ==== Sys2Proof/Decode.lean ====
section
/-! DEFINITION. The decoder of frames and of command words, total and rejecting by name, and after it the encoder. -/

namespace Sys2Proof

/-- The ten opcodes (`30_encoding.md` R78). -/
abbrev Opcode.wren : Byte := 0x06
abbrev Opcode.wrdi : Byte := 0x04
abbrev Opcode.rsten : Byte := 0x66
abbrev Opcode.rst : Byte := 0x99
abbrev Opcode.rdid : Byte := 0x9F
abbrev Opcode.read : Byte := 0x03
abbrev Opcode.fread : Byte := 0x0B
abbrev Opcode.pp : Byte := 0x02
abbrev Opcode.se : Byte := 0x20
abbrev Opcode.ce : Byte := 0xC7

/-- The bytes of one select window, or the number in `CMD`, of `OPW` bits: the two things an encoding is (`30_encoding.md`). -/
inductive Code
  | frame (bytes : List Byte)
  | cmd (word : Nat)
  deriving DecidableEq, Repr

/-- Why a window is no frame of the sequencer (`30_encoding.md` R71, R76, R79). -/
inductive DecodeError
  /-- The window holds no byte. -/
  | emptyWindow
  /-- Byte 0 is none of the nine first bytes (R79: "invalid"); `0x99` is one of these. -/
  | unknownOpcode (b : Byte)
  /-- Byte 0 is an opcode, and the frame has not the length of its format (R71, R76). -/
  | badLength (b : Byte) (n : Nat)
  /-- The window begins with `0x66` and byte 1 is not `0x99` (R76). -/
  | badResetPair (b : Byte)
  deriving DecidableEq, Repr

/-- What a decoder answers: the instructions a window carries, in order, or a named rejection. -/
inductive Decoded
  | instrs (is : List Instr)
  | reject (e : DecodeError)
  deriving DecidableEq, Repr

/-- The value of three address bytes, most significant first (`20_memory.md` R45). -/
def addrValue (b2 b1 b0 : Byte) : Nat := b2.toNat * 65536 + b1.toNat * 256 + b0.toNat

/-- The 24-bit address of three address bytes. -/
def addrOfBytes (b2 b1 b0 : Byte) : Addr := BitVec.ofNat 24 (addrValue b2 b1 b0)

/-- A frame of one opcode and nothing else: formats `F-O` and `F-OR`. -/
def decodeBare (op : Byte) (i : Instr) (rest : List Byte) : Decoded :=
  match rest with
  | [] => .instrs [i]
  | _ :: _ => .reject (.badLength op (rest.length + 1))

/-- A frame of one opcode and an address: formats `F-A` and `F-AR`. -/
def decodeAddressed (op : Byte) (i : Addr → Instr) (rest : List Byte) : Decoded :=
  match rest with
  | [b2, b1, b0] => .instrs [i (addrOfBytes b2 b1 b0)]
  | _ => .reject (.badLength op (rest.length + 1))

/-- The fast-read frame: format `F-ADR`. -/
def decodeFastRead (rest : List Byte) : Decoded :=
  match rest with
  | [b2, b1, b0, dummy] => .instrs [.fread (addrOfBytes b2 b1 b0) dummy]
  | _ => .reject (.badLength Opcode.fread (rest.length + 1))

/-- The page-program frame: format `F-AP`, 1 to 256 payload bytes. -/
def decodeProgram (rest : List Byte) : Decoded :=
  match rest with
  | b2 :: b1 :: b0 :: d =>
    if 1 ≤ d.length ∧ d.length ≤ Config.pageSize then .instrs [.pp (addrOfBytes b2 b1 b0) d]
    else .reject (.badLength Opcode.pp (rest.length + 1))
  | _ => .reject (.badLength Opcode.pp (rest.length + 1))

/-- The reset frame: format `F-OO`, which carries `RSTEN` and then `RST` (`40_wire_instructions.md` R93, R94). -/
def decodeReset (rest : List Byte) : Decoded :=
  match rest with
  | [b] => if b = Opcode.rst then .instrs [.rsten, .rst] else .reject (.badResetPair b)
  | _ => .reject (.badLength Opcode.rsten (rest.length + 1))

/-- The decoder of the sequencer's output stream: byte 0 decides the instruction (`30_encoding.md` R76, R78), any other value is
invalid (R79). -/
def decodeFrame (bytes : List Byte) : Decoded :=
  match bytes with
  | [] => .reject .emptyWindow
  | op :: rest =>
    if op = Opcode.wren then decodeBare op .wren rest
    else if op = Opcode.wrdi then decodeBare op .wrdi rest
    else if op = Opcode.rdid then decodeBare op .rdid rest
    else if op = Opcode.ce then decodeBare op .ce rest
    else if op = Opcode.rsten then decodeReset rest
    else if op = Opcode.read then decodeAddressed op .read rest
    else if op = Opcode.se then decodeAddressed op .se rest
    else if op = Opcode.fread then decodeFastRead rest
    else if op = Opcode.pp then decodeProgram rest
    else .reject (.unknownOpcode op)

/-- The operation a number of `CMD.OP` names (`30_encoding.md` R80; the numbers are the spec's own, D13). -/
def opOfCode (n : Nat) : Op :=
  if n = 0 then .reset
  else if n = 1 then .readId
  else if n = 2 then .read
  else if n = 3 then .fastRead
  else if n = 4 then .eraseSector
  else if n = 5 then .eraseChip
  else if n = 6 then .write
  else .init

/-- `CMD.OP` is bits 2:0 of the word; the reserved bits are ignored (`10_state.md` R23, `30_encoding.md` R81). -/
def decodeCmd (w : Nat) : Op := opOfCode (w % 8)

/-- The decoder of both encodings. -/
def decode : Code → Decoded
  | .frame bytes => decodeFrame bytes
  | .cmd w => .instrs [(decodeCmd w).toInstr]

/-- `lo8` (`00_scope.md` R7). -/
def lo8 (v : Nat) : Byte := BitVec.ofNat 8 v

/-- The three address bytes of an address, most significant first (`30_encoding.md` R72). -/
def addrBytes (a : Nat) : List Byte := [lo8 (a / 65536), lo8 (a / 256), lo8 a]

/-- The number of `CMD.OP` that names an operation (`30_encoding.md` R80). -/
def Op.code : Op → Nat
  | .reset => 0
  | .readId => 1
  | .read => 2
  | .fastRead => 3
  | .eraseSector => 4
  | .eraseChip => 5
  | .write => 6
  | .init => 7

/-- The encoder: the frame of a wire instruction (`30_encoding.md` R71), the command word of a host operation (R80). -/
def encode : Instr → Code
  | .wren => .frame [Opcode.wren]
  | .wrdi => .frame [Opcode.wrdi]
  | .rsten => .frame [Opcode.rsten, Opcode.rst]
  | .rst => .frame [Opcode.rsten, Opcode.rst]
  | .rdid => .frame [Opcode.rdid]
  | .read a => .frame (Opcode.read :: addrBytes a.toNat)
  | .fread a dummy => .frame (Opcode.fread :: (addrBytes a.toNat ++ [dummy]))
  | .pp a d => .frame (Opcode.pp :: (addrBytes a.toNat ++ d))
  | .se a => .frame (Opcode.se :: addrBytes a.toNat)
  | .ce => .frame [Opcode.ce]
  | .opReset => .cmd (Op.code .reset)
  | .opReadId => .cmd (Op.code .readId)
  | .opRead => .cmd (Op.code .read)
  | .opFastRead => .cmd (Op.code .fastRead)
  | .opEraseSector => .cmd (Op.code .eraseSector)
  | .opEraseChip => .cmd (Op.code .eraseChip)
  | .opWrite => .cmd (Op.code .write)
  | .opInit => .cmd (Op.code .init)

/-- The bytes of a wire instruction's frame; no bytes for a host operation. -/
def frameBytes (i : Instr) : List Byte :=
  match encode i with
  | .frame bytes => bytes
  | .cmd _ => []

/-- Which instruction of its window an instruction is, counted from 0: `RST` is the second (the table's `match_byte`). -/
def windowIndex : Instr → Nat
  | .rst => 1
  | _ => 0

/-- The `i`-th instruction of a decoding. -/
def Decoded.at (d : Decoded) (i : Nat) : Option Instr :=
  match d with
  | .instrs is => is[i]?
  | .reject _ => none

/-- Byte `j` of a table word (bit 0 of the table is the least significant bit of the first byte). -/
def tableByte (w j : Nat) : Byte := lo8 (w / 256 ^ j)

/-- The window that a table row's word stands for: the length is the opcode's (`30_encoding.md` R76), bits above the row's are 0. A
reset row gives only one of the two bytes of its frame a value, so the fixed other byte is put beside it. -/
def tableWindow (nbits w : Nat) : List Byte :=
  let op := tableByte w 0
  if op = Opcode.rsten ∨ op = Opcode.rst then [Opcode.rsten, Opcode.rst]
  else if op = Opcode.wren ∨ op = Opcode.wrdi ∨ op = Opcode.rdid ∨ op = Opcode.ce then [op]
  else if op = Opcode.fread then (List.range 5).map (tableByte w)
  else if op = Opcode.pp then (List.range (max 5 (nbits / 8))).map (tableByte w)
  else (List.range 4).map (tableByte w)

/-- The ten opcode values. -/
abbrev opcodeBytes : List Byte :=
  [Opcode.wren, Opcode.wrdi, Opcode.rsten, Opcode.rst, Opcode.rdid, Opcode.read, Opcode.fread, Opcode.pp, Opcode.se, Opcode.ce]

/-- Whether a table word is read as a command word. DESIGN CHOICE (log 3): the table has two code spaces whose numbers collide, and a
word alone does not tell them apart: a word whose first byte is no wire opcode is a command word, and so is a 32-bit word below 8. -/
def tableWordIsCmd (nbits w : Nat) : Bool :=
  !(decide (tableByte w 0 ∈ opcodeBytes)) || (decide (w < 8) && decide (25 ≤ nbits))

/-- What the decoder reads from a word numbered as spec/opcode_table.json numbers it. -/
def decodeTableWord (nbits w : Nat) : Option Instr :=
  if tableWordIsCmd nbits w then (decode (.cmd w)).at 0
  else (decode (.frame (tableWindow nbits w))).at (if tableByte w 0 = Opcode.rst then 1 else 0)

end Sys2Proof
end

