-- ==== Sys2Proof/Machine/State.lean ====
section
/-! DEFINITION. The state of the machine as plain data, its faults and refusals, and the state after reset. -/

namespace Sys2Proof.Machine

/-- The kinds of transport error (`60_exceptions.md` R141). -/
inductive ErrKind
  | busy
  | timeout
  | fail
  deriving DecidableEq, Repr

/-- The four results (`60_exceptions.md` R140). -/
inductive Result
  | ok
  | noResponse
  | transportError
  | outOfRange
  deriving DecidableEq, Repr

/-- What the environment answered to a Transmit (`00_scope.md` R8). -/
inductive TxAnswer
  | ok
  | err (k : ErrKind)
  deriving DecidableEq, Repr

/-- What the environment answered to a Receive (`00_scope.md` R8). -/
inductive RxAnswer
  | ok (bytes : List Byte)
  | err (k : ErrKind)
  deriving DecidableEq, Repr

/-- One event of the trace: one Transport Port call with its answer (`00_scope.md` R9). `dly` carries its parameter by name (D3). -/
inductive Event
  | sel
  | desel
  | tx (bytes : List Byte) (a : TxAnswer)
  | rx (n : Nat) (a : RxAnswer)
  | dly (d : DelayParam)
  deriving DecidableEq, Repr

/-- A coming answer of the environment (`00_scope.md` R11), an input. DESIGN CHOICE (log 12): `auto` lets the attached device answer
(`ok`, and the bytes it drives), `err` is a failed call, `data` is `ok` with bytes of the environment's own choice. -/
inductive Answer
  | auto
  | err (k : ErrKind)
  | data (bytes : List Byte)
  deriving DecidableEq, Repr

/-- The stages of the sequence position (`10_state.md` R26). -/
inductive Stage
  | idle
  | chk
  | en
  | mut
  | xfer
  | dly
  | dis
  | fin
  deriving DecidableEq, Repr

/-- The calls of a transaction (`10_state.md` R26); `dash` is the spec's `-`. -/
inductive Sub
  | sel
  | tx
  | rx
  | desel
  | dash
  deriving DecidableEq, Repr

/-- The sequence position `pc = (STAGE, SUB)` (`10_state.md` R26). -/
structure SeqPos where
  stage : Stage
  sub : Sub
  deriving DecidableEq, Repr

/-- A range of flash addresses `lo .. hi-1` whose bytes are indeterminate (`20_memory.md` R48): byte `a` reads as the free value
`Config.freeFlash draw a`. -/
structure Fog where
  lo : Nat
  hi : Nat
  draw : Nat
  deriving DecidableEq, Repr

/-- The flash array (`20_memory.md` R40): listed cells, addresses rising, none equal to the erased value, and indeterminate ranges. -/
structure Memory where
  cells : List Host.Cell
  fog : List Fog
  deriving DecidableEq, Repr

/-- Which device is attached behind the Transport Port (log 16). -/
inductive DeviceKind
  /-- No device: every received byte is `0x00` (`20_memory.md` R63). -/
  | absent
  /-- The reference stub (`20_memory.md` R60 to R65). -/
  | stub
  /-- The stricter stub with a busy bit (`20_memory.md` R60). -/
  | strictStub
  /-- The device of the source alone: what a failed frame leaves is indeterminate (`20_memory.md` R48, `60_exceptions.md` R149, log 17). -/
  | general
  deriving DecidableEq, Repr

/-- The flash device (`10_state.md` R33, `20_memory.md` R60). `draws` is the MODEL's own counter of free values. -/
structure Device where
  kind : DeviceKind
  flash : Memory
  /-- The write-enable latch. -/
  wel : Bool
  /-- The device's busy condition. -/
  busy : Bool
  /-- The bytes transmitted in the current select window. -/
  win : List Byte
  /-- How many response bytes were returned in the current window. -/
  rxpos : Nat
  /-- A call of the current window failed: its frame may have arrived in part (the `general` device, log 25). -/
  torn : Bool
  /-- The failed windows that no Deselect ended, which the current one may continue (`70_reset_and_hazards.md` R188; the `general`
  device, log 25). -/
  stale : List (List Byte)
  draws : Nat
  deriving DecidableEq, Repr

/-- One access of the host to the command port (`10_state.md` R34). -/
inductive HostAct
  | setPage (v : Nat)
  | setOffs (v : Nat)
  | setLen (v : Nat)
  | setSect (v : Nat)
  | setPinIn (v : Nat)
  | setSrc (bytes : List Byte)
  | setDst (bytes : List Byte)
  | writeCmd (w : Nat)
  deriving DecidableEq, Repr

/-- A coming access of the host, an input (log 13). `waits` says that the host makes it only when `BUSY = 0`, as the serialised host of
`20_memory.md` R54 does; one that does not wait comes at the very next step. -/
structure HostAction where
  waits : Bool
  act : HostAct
  deriving DecidableEq, Repr

/-- The machine (`10_state.md` R20), its environment (R33) and its inputs. -/
structure State where
  /-- The configuration record (R32). -/
  cfg : Params
  /-- `BOUND` (R21). -/
  bound : Bool
  /-- `PINMAP` (R21). -/
  pinmap : Nat
  /-- The pin mapping the host supplies alongside `init` (R34). -/
  pinIn : Nat
  /-- `PAGE` (R22), `OPW` bits: a number below `2^OPW` (log 10). -/
  page : Nat
  /-- `OFFS` (R22), `OPW` bits. -/
  offs : Nat
  /-- `LEN` (R22), `OPW` bits. -/
  len : Nat
  /-- `SECT` (R22), `OPW` bits. -/
  sect : Nat
  /-- `CMD` (R23), `OPW` bits. -/
  cmd : Nat
  /-- `OP` (R23). -/
  op : Op
  /-- `BASE` (R24). -/
  base : Nat
  /-- `CUR` (R24). -/
  cur : Nat
  /-- `END` (R24), exclusive. -/
  endAddr : Nat
  /-- `REM` (R24). -/
  rem : Nat
  /-- `CHUNK` (R24). -/
  chunk : Nat
  /-- `(STAGE, SUB)` (R26). -/
  pc : SeqPos
  /-- `STATUS.BUSY` (R28). -/
  busy : Bool
  /-- `STATUS.DONE` (R28). -/
  done : Bool
  /-- `STATUS.RESULT` (R28). -/
  result : Result
  /-- `ID` (R29). -/
  id : JedecId
  /-- `SELECTED` (R30). -/
  selected : Bool
  /-- The result the step `(FIN,-)` will write; not `ok` before it while a failure is pending (R27). -/
  pending : Result
  /-- The bytes of the last successful Receive (`40_wire_instructions.md` R90, `data`). -/
  resp : List Byte
  /-- `SRC` (`20_memory.md` R41). -/
  src : List Byte
  /-- `DST` (`20_memory.md` R41): its length is the room the host gives. -/
  dst : List Byte
  /-- The device behind the Transport Port (R33). -/
  dev : Device
  /-- The environment's coming answers, the next first. -/
  answers : List Answer
  /-- The host's coming accesses, the next first. -/
  port : List HostAction
  /-- The event trace since reset, oldest first (`00_scope.md` R9). -/
  trace : List Event
  /-- The MODEL's own counter of free values drawn by the sequencer. -/
  draws : Nat
  deriving DecidableEq, Repr

/-- Why the machine stops with a fault. None is raised in a state that a run from reset reaches; each is safe. -/
inductive Fault
  /-- Raised by `afterTxn` and `delayStep` and `receive` at a sequence position that `10_state.md` R27 has no row for. Safe. -/
  | sequencePosition
  /-- Raised by `step` and `wireStep` where the position sends no frame, or one that decodes to nothing: "it shows a fault of the
  model or of the harness, not an instruction" (`30_encoding.md` R79). Safe. -/
  | invalidFrame
  /-- Raised by `execPp` and `execSe` when the address does not exist (`20_memory.md` R50). Safe (log 24). -/
  | flashAddressAbsent
  deriving DecidableEq, Repr

/-- Why the model says nothing about how the run goes on. Each is safe. -/
inductive Refusal
  /-- Raised by a refused arm of `exec`: the instruction has no meaning yet. Safe. -/
  | notModelled (mnemonic : String)
  /-- Raised by `accept` and by `step`: a command with `BUSY = 1` (`60_exceptions.md` R161 a). Safe. -/
  | commandWhileBusy
  /-- Raised by `accept`: `BOUND = 0` and the operation is not `init` (R161 b). Safe. -/
  | notInitialised
  /-- Raised by `accept`: `BOUND = 1` and the operation is `init` (R161 c). Safe. -/
  | secondInit
  /-- Raised by `step`: the host writes an operand, the pin mapping or a buffer with `BUSY = 1` (`70_reset_and_hazards.md` R187, D16,
  D20, U8, log 13). Safe. -/
  | hostAccessWhileBusy
  /-- Raised by `checkWrite`: `len(SRC) < LEN` (`20_memory.md` R41, D20). Safe. -/
  | srcTooShort
  /-- Raised by `checkRead`: `DST` has no room for `LEN` bytes (`20_memory.md` R41, D20). Safe. -/
  | dstTooShort
  /-- Raised by a wire instruction outside the four transaction stages: no one issues it there (`40_wire_instructions.md`). Safe (log 26). -/
  | noTransactionOpen
  deriving DecidableEq, Repr

/-- A memory in which every byte reads as erased. -/
def Memory.fresh : Memory := ⟨[], []⟩

/-- The device at power-up (`20_memory.md` R60): `WEL = 0`, no window open, idle. PRESUMED (log 6): a fresh array, and the stub. -/
def Device.powerUp : Device where
  kind := .stub
  flash := Memory.fresh
  wel := false
  busy := false
  win := []
  rxpos := 0
  torn := false
  stale := []
  draws := 0

/-- The state right after power-on reset (`10_state.md` R35, `70_reset_and_hazards.md` R170). DESIGN CHOICE (log 5): what the spec calls
unspecified is zero or empty. -/
def State.reset : State where
  cfg := Params.default
  bound := false
  pinmap := 0
  pinIn := 0
  page := 0
  offs := 0
  len := 0
  sect := 0
  cmd := 0
  op := .reset
  base := 0
  cur := 0
  endAddr := 0
  rem := 0
  chunk := 0
  pc := ⟨.idle, .dash⟩
  busy := false
  done := false
  result := .ok
  id := 0
  selected := false
  pending := .ok
  resp := []
  src := []
  dst := []
  dev := Device.powerUp
  answers := []
  port := []
  trace := []
  draws := 0

end Sys2Proof.Machine
end

