-- ==== Sys2Proof/Machine/Flags.lean ====
section
/-! DEFINITION. Results and the status register: the translation of transport errors, `BUSY`, `DONE`, `RESULT`. -/

namespace Sys2Proof.Machine

/-- `Translate(k)` (`60_exceptions.md` R142). -/
def translate : ErrKind → Result
  | .busy => .noResponse
  | .timeout => .noResponse
  | .fail => .transportError

/-- The number of a result (`60_exceptions.md` R140; the numbers are the spec's own, D14). -/
def Result.code : Result → Nat
  | .ok => 0
  | .noResponse => 1
  | .transportError => 2
  | .outOfRange => 3

/-- `STATUS` (`10_state.md` R28): `BUSY` in bit 0, `DONE` in bit 1, `RESULT` in bits 3:2. -/
def State.status (s : State) : BitVec 4 :=
  BitVec.ofNat 4 (s.busy.toNat + 2 * s.done.toNat + 4 * s.result.code)

/-- Command acceptance sets `BUSY` and clears `DONE` (`10_state.md` R23, R28). -/
def State.markAccepted (s : State) : State := { s with busy := true, done := false }

/-- The step `(FIN,-)` writes `RESULT`, sets `DONE` and clears `BUSY`, and no other flag is written anywhere (`10_state.md` R28). -/
def State.markFinished (s : State) (r : Result) : State := { s with result := r, done := true, busy := false }

end Sys2Proof.Machine
end

