-- ==== Sys2Proof/Machine/Memory.lean ====
section
/-! DEFINITION. The flash array: reading one byte, writing one byte, erasing a range, making a range indeterminate. -/

namespace Sys2Proof.Machine

/-- What an erased byte reads as. PRESUMED (`93_implementation_defined.md` G4, log 6): `0xFF`, the value of the NOR family. -/
abbrev erasedByte : Byte := 0xFF

/-- What an address reads as that no cell lists: a free value inside an indeterminate range, else the erased value. -/
def Memory.unlisted (m : Memory) (a : Nat) : Byte :=
  match m.fog.find? (fun g => decide (g.lo ≤ a ∧ a < g.hi)) with
  | some g => Config.freeFlash g.draw a
  | none => erasedByte

/-- The cell listed for an address. -/
def cellAt : List Host.Cell → Nat → Option Byte
  | [], _ => none
  | c :: cs, a => if c.1 = a then some c.2 else cellAt cs a

/-- Reading one byte. -/
def Memory.read (m : Memory) (a : Nat) : Byte :=
  match cellAt m.cells a with
  | some b => b
  | none => m.unlisted a

/-- Insert or overwrite a cell, keeping the addresses rising. -/
def putCell (a : Nat) (b : Byte) : List Host.Cell → List Host.Cell
  | [] => [(a, b)]
  | c :: cs => if a < c.1 then (a, b) :: c :: cs else if c.1 = a then (a, b) :: cs else c :: putCell a b cs

/-- The cells outside `lo .. hi-1`. -/
def cellsOutside (lo hi : Nat) (cs : List Host.Cell) : List Host.Cell := cs.filter (fun c => decide (c.1 < lo ∨ hi ≤ c.1))

/-- The range `lo .. hi-1` of a draw, or nothing where it is empty. -/
def fogPiece (lo hi draw : Nat) : List Fog := if lo < hi then [⟨lo, hi, draw⟩] else []

/-- The indeterminate ranges outside `lo .. hi-1`. -/
def fogOutside (lo hi : Nat) (fs : List Fog) : List Fog :=
  fs.flatMap (fun g => fogPiece g.lo (min g.hi lo) g.draw ++ fogPiece (max g.lo hi) g.hi g.draw)

/-- Writing one byte; the erased value removes the entry. -/
def Memory.write (m : Memory) (a : Nat) (b : Byte) : Memory where
  cells := if b = erasedByte then cellsOutside a (a + 1) m.cells else putCell a b m.cells
  fog := fogOutside a (a + 1) m.fog

/-- Erasing `lo .. hi-1`. -/
def Memory.eraseRange (m : Memory) (lo hi : Nat) : Memory where
  cells := cellsOutside lo hi m.cells
  fog := fogOutside lo hi m.fog

/-- Making `lo .. hi-1` indeterminate: its bytes are the free values of one draw (`20_memory.md` R48). -/
def Memory.makeUnknown (m : Memory) (lo hi draw : Nat) : Memory where
  cells := cellsOutside lo hi m.cells
  fog := fogPiece lo hi draw ++ fogOutside lo hi m.fog

/-- The canonical form: addresses strictly rising, no cell equal to the erased value, indeterminate ranges not empty, apart from each
other and from every cell. -/
abbrev Memory.wf (m : Memory) : Prop :=
  m.cells.Pairwise (fun c d => c.1 < d.1) ∧ (∀ c ∈ m.cells, c.2 ≠ erasedByte) ∧ (∀ g ∈ m.fog, g.lo < g.hi) ∧
    m.fog.Pairwise (fun g h => g.hi ≤ h.lo ∨ h.hi ≤ g.lo) ∧ ∀ c ∈ m.cells, ∀ g ∈ m.fog, c.1 < g.lo ∨ g.hi ≤ c.1

end Sys2Proof.Machine
end

