-- ==== Sys2Proof/Machine/Device.lean ====
section
/-! DEFINITION. The flash device: what it does at each event of the trace and what bytes it drives (`20_memory.md` R60 to R65). -/

namespace Sys2Proof.Machine

/-- What the bytes of a select window are to the device (`20_memory.md` R61 to R64). -/
inductive WinFrame
  | nothing
  | setLatch
  | clearLatch
  | program (a : Nat) (d : List Byte)
  | sector (a : Nat)
  | chip
  | reset
  | read (a : Nat)
  | ident
  deriving DecidableEq, Repr

/-- The frame a window holds: decided by its first byte, with the exact form R62 to R64 give it; any other window is nothing. -/
def winFrame (w : List Byte) : WinFrame :=
  match w with
  | [b0] =>
    if b0 = Opcode.wren then .setLatch
    else if b0 = Opcode.wrdi then .clearLatch
    else if b0 = Opcode.ce then .chip
    else if b0 = Opcode.rdid then .ident
    else .nothing
  | [b0, b1] => if b0 = Opcode.rsten ∧ b1 = Opcode.rst then .reset else .nothing
  | [b0, b1, b2, b3] =>
    if b0 = Opcode.se then .sector (addrValue b1 b2 b3)
    else if b0 = Opcode.read then .read (addrValue b1 b2 b3)
    else .nothing
  | b0 :: b1 :: b2 :: b3 :: b4 :: rest =>
    if b0 = Opcode.pp then .program (addrValue b1 b2 b3) (b4 :: rest)
    else if b0 = Opcode.fread ∧ rest = [] then .read (addrValue b1 b2 b3)
    else .nothing
  | _ => .nothing

/-- Where byte `i` of a payload programmed at `a` goes: it wraps inside the page (`20_memory.md` R62). -/
def progAddr (a i : Nat) : Nat := a / 256 * 256 + (a + i) % 256

/-- The first and the exclusive last address of the sector of `a` (`20_memory.md` R42). -/
def sectorLo (a : Nat) : Nat := a / 4096 * 4096
def sectorHi (a : Nat) : Nat := a / 4096 * 4096 + 4096

/-- The exclusive end `hi` of a range that begins at `lo`, cut at the end of the array (`20_memory.md` R50: nothing exists beyond). -/
def capHi (lo hi total : Nat) : Nat := max lo (min hi total)

/-- The new value of a programmed byte: `old AND d` (`20_memory.md` R62); in the `general` device a byte that is not erased gets a free
value (`93_implementation_defined.md` U17, log 17). -/
def progByte (k : DeviceKind) (draw t : Nat) (old d : Byte) : Byte :=
  if k = .general ∧ old ≠ erasedByte then Config.freeFlash draw t else old &&& d

/-- Programming a payload from its `i`-th byte on, byte after byte. An address that does not exist (`20_memory.md` R50) holds no cell. -/
def programFrom (k : DeviceKind) (total draw a : Nat) : Nat → List Byte → Memory → Memory
  | _, [], m => m
  | i, d :: ds, m =>
    let t := progAddr a i
    programFrom k total draw a (i + 1) ds
      (if t < total then m.write t (progByte k draw t (m.read t) d) else m)

/-- The effect of a mutating frame on the array, the latch being set (`20_memory.md` R62). -/
def mutated (k : DeviceKind) (p : Params) (draw : Nat) (f : WinFrame) (m : Memory) : Memory :=
  match f with
  | .program a d => programFrom k p.totalBytes draw a 0 d m
  | .sector a => m.eraseRange (sectorLo a) (capHi (sectorLo a) (sectorHi a) p.totalBytes)
  | .chip => m.eraseRange 0 p.totalBytes
  | _ => m

/-- The range of addresses a mutating frame is about (`93_implementation_defined.md` U1): the chunk, the sector, the whole array. A
payload that would leave its page, which the sequencer never sends, is about its page. -/
def targetLo (f : WinFrame) : Nat :=
  match f with
  | .program a d => if a % 256 + d.length ≤ 256 then a else a / 256 * 256
  | .sector a => sectorLo a
  | _ => 0

/-- The exclusive end of that range, cut at the end of the array. -/
def targetHi (p : Params) (f : WinFrame) : Nat :=
  match f with
  | .program a d => capHi (targetLo f) (if a % 256 + d.length ≤ 256 then a + d.length else a / 256 * 256 + 256) p.totalBytes
  | .sector a => capHi (targetLo f) (sectorHi a) p.totalBytes
  | .chip => p.totalBytes
  | _ => 0

/-- Whether a frame mutates the array: program, sector erase, chip erase (source §4.2). -/
def WinFrame.mutates : WinFrame → Bool
  | .program _ _ => true
  | .sector _ => true
  | .chip => true
  | _ => false

/-- Whether a frame acts on the latch without mutating the array. -/
def WinFrame.latches : WinFrame → Bool
  | .setLatch => true
  | .clearLatch => true
  | .reset => true
  | _ => false

/-- Whether a frame is one of the three state-mutating ones, by its opcode (source §4.2). -/
def frameMutates (f : List Byte) : Bool :=
  match f with
  | [] => false
  | op :: _ => decide (op = Opcode.pp ∨ op = Opcode.se ∨ op = Opcode.ce)

/-- The frame that the bytes of a window may be to the device. In the `general` device a window that may continue an unfinished mutating
frame (`70_reset_and_hazards.md` R188) may be that frame with any address and payload: its range is the whole array (log 25). -/
def Device.meant (d : Device) (bytes : List Byte) : WinFrame :=
  if d.kind = .general ∧ d.stale.any frameMutates = true then .chip else winFrame bytes

/-- Whether a device has a busy bit: the stricter stub and the device of the source alone, not the plain stub (`20_memory.md` R60). -/
def DeviceKind.hasBusy : DeviceKind → Bool
  | .absent => false
  | .stub => false
  | .strictStub => true
  | .general => true

/-- What a frame leaves that may or may not have been executed: the target range and the latch are free values
(`60_exceptions.md` R149, U1, U2, log 17); a reading frame leaves everything (R149). DESIGN CHOICE (log 17): where the frame may
have begun a mutation or a reset, whether the device is busy is a free value too, since no delay follows. -/
def Device.indeterminate (d : Device) (p : Params) (f : WinFrame) : Device :=
  if f.mutates then
    { d with flash := d.flash.makeUnknown (targetLo f) (targetHi p f) d.draws, wel := Config.freeWel d.draws,
             busy := d.busy || Config.freeBusy d.draws, draws := d.draws + 1 }
  else if f = .reset then
    { d with wel := Config.freeWel d.draws, busy := d.busy || Config.freeBusy d.draws, draws := d.draws + 1 }
  else if f.latches then { d with wel := Config.freeWel d.draws, draws := d.draws + 1 }
  else d

/-- The effect of a complete frame, at the `DESEL` that ends it (`20_memory.md` R61 to R64). A mutation and a reset take time
(`60_exceptions.md` R157), so they leave a device that has a busy bit busy until the next delay. A reset keeps the array: R64 for the
stubs, DESIGN CHOICE for the `general` device (`91_not_in_source.md` N19, log 35). -/
def Device.execute (d : Device) (p : Params) (f : WinFrame) : Device :=
  if f.mutates then
    if d.wel then
      { d with flash := mutated d.kind p d.draws f d.flash, wel := false, draws := d.draws + 1, busy := d.kind.hasBusy }
    else d
  else
    match f with
    | .setLatch => { d with wel := true }
    | .clearLatch => { d with wel := false }
    | .reset =>
      { d with wel := if d.kind = .general then Config.freeWel d.draws else false, draws := d.draws + 1, busy := d.kind.hasBusy }
    | _ => d

/-- The end of a select window: an absent device does nothing, a busy stricter stub ignores the frame. In the `general` device a frame
that meets a busy device (U12) or may be taken as the continuation of a failed one (R188, log 25) is indeterminate, and one whose call
failed had its effect at that call. -/
def Device.endWindow (d : Device) (p : Params) : Device :=
  let d' := { d with win := [], torn := false, stale := [] }
  match d.kind with
  | .absent => d'
  | .stub => d'.execute p (winFrame d.win)
  | .strictStub => if d.busy then d' else d'.execute p (winFrame d.win)
  | .general =>
    if d.stale ≠ [] ∨ d.busy = true then d'.indeterminate p (d.meant d.win)
    else if d.torn then d'
    else d'.execute p (winFrame d.win)

/-- A Transmit that failed: it delivers nothing to the stubs (`20_memory.md` R61), and in the `general` device its frame is
indeterminate (R48). -/
def Device.failTx (d : Device) (p : Params) (bytes : List Byte) : Device :=
  if d.kind = .general then
    { d with win := d.win ++ bytes, torn := true }.indeterminate p (d.meant (d.win ++ bytes))
  else d

/-- The start of a select window (`20_memory.md` R61). Where a failed window was never ended, it is kept as one that the new window may
continue (`70_reset_and_hazards.md` R188); only the `general` device has such windows. -/
def Device.startWindow (d : Device) : Device :=
  { d with win := [], rxpos := 0, torn := false, stale := if d.torn then d.stale ++ [d.win] else [] }

/-- What the device does at one event (`20_memory.md` R61, R63, R65). -/
def Device.onEvent (p : Params) (d : Device) (e : Event) : Device :=
  match e with
  | .sel => d.startWindow
  | .tx bytes .ok => { d with win := d.win ++ bytes }
  | .tx bytes (.err _) => d.failTx p bytes
  | .rx n (.ok _) => { d with rxpos := d.rxpos + n, draws := d.draws + 1 }
  | .rx _ (.err _) => { d with torn := decide (d.kind = .general) }
  | .desel => d.endWindow p
  | .dly _ => { d with busy := false }

/-- `n` bytes of unspecified value (`20_memory.md` R63, log 30), the first being number `i`. -/
def freeBytes (draw i n : Nat) : List Byte := (List.range n).map (fun j => Config.freeRx draw (i + j))

/-- The three bytes of an identifier, most significant first (`20_memory.md` R45, R63). -/
def idBytes (v : JedecId) : List Byte := [lo8 (v.toNat / 65536), lo8 (v.toNat / 256), lo8 v.toNat]

/-- The bytes the device drives during a Receive of `n` (`20_memory.md` R63); those of a busy device, and of one that may be in the
middle of another frame, are free (log 30). -/
def Device.respond (p : Params) (d : Device) (n : Nat) : List Byte :=
  if d.kind = .absent then List.replicate n 0x00
  else if d.busy = true ∧ d.kind.hasBusy = true ∨ d.stale ≠ [] ∧ d.kind = .general then freeBytes d.draws 0 n
  else
    match winFrame d.win with
    | .read a => (List.range n).map (fun i => d.flash.read ((a + d.rxpos + i) % p.totalBytes))
    | .ident => (idBytes p.deviceId).take n ++ freeBytes d.draws 3 (n - 3)
    | _ => freeBytes d.draws 0 n

end Sys2Proof.Machine
end

