-- ==== Sys2Proof/Machine/Operands.lean ====
section
/-! DEFINITION. Operands: the linear address, the range rule, the bytes the host supplies, the frame of each sequence position, and what
the host may read. -/

namespace Sys2Proof.Machine

/-- `PAGE * PAGE_SIZE + OFFS`, exact (`20_memory.md` R43). -/
def State.start (s : State) : Nat := s.page * Config.pageSize + s.offs

/-- The range rule for `LEN` bytes from the start address: the exclusive end may equal `TOTAL_BYTES` (`20_memory.md` R44). -/
def State.rangeOk (s : State) : Bool := decide (s.start + s.len ≤ s.cfg.totalBytes)

/-- The range rule for a sector index (`20_memory.md` R44). -/
def State.sectorOk (s : State) : Bool := decide (s.sect < s.cfg.totalSectors)

/-- `SECT * SECTOR_SIZE`, exact (`43_facade_ops.md` R130). -/
def State.sectorStart (s : State) : Nat := s.sect * Config.sectorSize

/-- `MemRead(SRC, i, n)` (`20_memory.md` R41). -/
def State.srcSlice (s : State) (i n : Nat) : List Byte := (s.src.drop i).take n

/-- `MemWrite(DST, 0, n, bytes)` with `n` the number of bytes (`43_facade_ops.md` R128). -/
def State.writeDst (s : State) (bytes : List Byte) : State := { s with dst := bytes ++ s.dst.drop bytes.length }

/-- The frame that the mutating stage sends (`41_write_gate.md` R107): `PP` with the chunk's slice of `SRC` (`42_page_write.md` R114), `SE`, `CE`. -/
def State.mutFrame (s : State) : Option (List Byte) :=
  match s.op with
  | .write => some (Opcode.pp :: (addrBytes s.cur ++ s.srcSlice (s.cur - s.base) s.chunk))
  | .eraseSector => some (Opcode.se :: addrBytes s.base)
  | .eraseChip => some [Opcode.ce]
  | _ => none

/-- The frame that the single transaction of an ungated operation sends (`43_facade_ops.md` R126 to R129). -/
def State.xferFrame (s : State) : Option (List Byte) :=
  match s.op with
  | .reset => some [Opcode.rsten, Opcode.rst]
  | .readId => some [Opcode.rdid]
  | .read => some (Opcode.read :: addrBytes s.base)
  | .fastRead => some (Opcode.fread :: (addrBytes s.base ++ [s.cfg.dummy]))
  | _ => none

/-- The frame of the sequence position, built from the registers and `SRC` (`10_state.md` R31). -/
def State.frame (s : State) : Option (List Byte) :=
  match s.pc.stage with
  | .en => some [Opcode.wren]
  | .dis => some [Opcode.wrdi]
  | .mut => s.mutFrame
  | .xfer => s.xferFrame
  | _ => none

/-- The delay an operation runs (`60_exceptions.md` R155). -/
def delayOf : Op → Option DelayParam
  | .write => some .tPp
  | .eraseSector => some .tSe
  | .eraseChip => some .tCe
  | .reset => some .tRst
  | _ => none

/-- The identifier of the three response bytes, big-endian (`43_facade_ops.md` R127). -/
def idOfBytes : List Byte → JedecId
  | b2 :: b1 :: b0 :: _ => addrOfBytes b2 b1 b0
  | _ => 0

/-- What the host may try to read (`10_state.md` R34). -/
inductive HostReg
  | page
  | offs
  | len
  | sect
  | cmd
  | op
  | bound
  | pinmap
  | status
  | id
  | working
  | stage
  | sub
  | selected
  | src
  | dst
  deriving DecidableEq, Repr

/-- What a host read gives: a register as a number, a buffer as its bytes. DESIGN CHOICE (log 36): the spec gives no width of a read, so
a register of fewer bits than `OPW` is the number its own bits make, with nothing above them. -/
inductive HostValue
  | number (n : Nat)
  | bytes (bytes : List Byte)
  deriving DecidableEq, Repr

/-- A host read; nothing for what `10_state.md` R34 does not let the host read. DESIGN CHOICE (log 36): above the fields of `STATUS`
(bits 4 and up), `ID` (24 and up) and `BOUND` (1 and up), where the spec says nothing, a read gives zero. DESIGN CHOICE (log 37): `DST` is
"defined only after `Ok`" (R34), and while a read runs the host finds its old bytes, up to the Deselect that ends the read or the abort. -/
def State.hostRead (s : State) : HostReg → Option HostValue
  | .page => some (.number s.page)
  | .offs => some (.number s.offs)
  | .len => some (.number s.len)
  | .sect => some (.number s.sect)
  | .bound => some (.number s.bound.toNat)
  | .status => some (.number s.status.toNat)
  | .id => some (.number s.id.toNat)
  | .src => some (.bytes s.src)
  | .dst => some (.bytes s.dst)
  | .cmd => none
  | .op => none
  | .pinmap => none
  | .working => none
  | .stage => none
  | .sub => none
  | .selected => none

end Sys2Proof.Machine
end

