-- ==== Sys2Proof/Machine/Ops.lean ====
section
/-! DEFINITION. The named operations of the sequencer: the five Transport Port calls, abort and finish, the splitter's loop, the
transaction, command acceptance, and the host's writes. -/

namespace Sys2Proof.Machine

/-- The outcome of a step of this machine. -/
abbrev Res := Host.Outcome State Fault Refusal

/-- `pc <- (stage, sub)` (`00_scope.md` R8). -/
def State.goto (s : State) (stage : Stage) (sub : Sub) : State := { s with pc := ⟨stage, sub⟩ }

/-- One Transport Port call: the event is recorded (`00_scope.md` R9) and the device sees it (`20_memory.md` R61). -/
def State.emit (s : State) (e : Event) : State := { s with trace := s.trace ++ [e], dev := s.dev.onEvent s.cfg e }

/-- The answers left after one call that has an answer. -/
def State.dropAnswer (s : State) : State := { s with answers := s.answers.tail }

/-- The answer to the coming Transmit. -/
def State.txAnswer (s : State) : TxAnswer :=
  match s.answers.head? with
  | some (.err k) => .err k
  | _ => .ok

/-- The answer to the coming `Receive(n)`, of `n` bytes when it is `ok`: the device's bytes, or the environment's own with the
device's after them. -/
def State.rxAnswer (s : State) (n : Nat) : RxAnswer :=
  match s.answers.head? with
  | some (.err k) => .err k
  | some (.data bytes) => .ok ((bytes ++ (s.dev.respond s.cfg n).drop bytes.length).take n)
  | _ => .ok (s.dev.respond s.cfg n)

/-- What an operation's failure leaves of its outputs: `ID` after a failed `read_id` (`10_state.md` R29), `DST[0 .. LEN)` after a failed
read (`60_exceptions.md` R148) are free values (log 15). -/
def State.spoilOutputs (s : State) : State :=
  match s.op with
  | .readId => { s with id := Config.freeId s.draws, draws := s.draws + 1 }
  | .read | .fastRead =>
    { s with dst := (List.range (min s.len s.dst.length)).map (Config.freeDst s.draws) ++ s.dst.drop s.len,
             draws := s.draws + 1 }
  | _ => s

/-- `raise code` (`60_exceptions.md` R147): this machine's exception entry. No call is made, nothing is saved, the step `(FIN,-)` comes
next and will write the result. -/
def State.raise (s : State) (r : Result) : State := { s.spoilOutputs with pending := r, pc := ⟨.fin, .dash⟩ }

/-- `return Ok` (`00_scope.md` R8): the step `(FIN,-)` comes next. -/
def State.complete (s : State) : State := { s with pending := .ok, pc := ⟨.fin, .dash⟩ }

/-- The step `(FIN,-)` (`10_state.md` R28, `60_exceptions.md` R147): the way back to the host, after a failure as after a success (R150). -/
def State.finish (s : State) : State := (s.markFinished s.pending).goto .idle .dash

/-- A failed Transmit or Receive (`40_wire_instructions.md` R90): the failure is pending until the Deselect of `DESELECT_ON_FAIL`, or the
operation is aborted at once. -/
def State.failCall (s : State) (k : ErrKind) : State :=
  if s.cfg.deselectOnFail then { s with pending := translate k, pc := ⟨s.pc.stage, .desel⟩ } else s.raise (translate k)

/-- `Select()` (`40_wire_instructions.md` R90). -/
def State.select (s : State) : State := { s.emit .sel with selected := true, pc := ⟨s.pc.stage, .tx⟩ }

/-- `Deselect()` (`40_wire_instructions.md` R90). -/
def State.deselect (s : State) : State := { s.emit .desel with selected := false }

/-- `Transmit(frame)`; `hasResp` says that a response phase follows (`10_state.md` R27). -/
def State.transmit (s : State) (frame : List Byte) (hasResp : Bool) : State :=
  let s' := (s.emit (.tx frame s.txAnswer)).dropAnswer
  match s.txAnswer with
  | .ok => s'.goto s.pc.stage (if hasResp then .rx else .desel)
  | .err k => s'.failCall k

/-- `Receive(n)` (`40_wire_instructions.md` R90). -/
def State.receive (s : State) (n : Nat) : State :=
  let s' := (s.emit (.rx n (s.rxAnswer n))).dropAnswer
  match s.rxAnswer n with
  | .ok bytes => { s' with resp := bytes, pc := ⟨s.pc.stage, .desel⟩ }
  | .err k => s'.failCall k

/-- `Delay(ms)` (`60_exceptions.md` R155). -/
def State.delay (s : State) (d : DelayParam) : State := s.emit (.dly d)

/-- The loop test of `write` (`42_page_write.md` R113): the next chunk, or the end. -/
def State.loopTest (s : State) : State :=
  if s.cur < s.endAddr then { s with chunk := min s.rem (s.endAddr - s.cur), pc := ⟨.en, .sel⟩ } else s.complete

/-- The advance of `write` (`42_page_write.md` R115). -/
def State.advance (s : State) : State := { s with cur := s.cur + s.chunk, rem := Config.pageSize }

/-- The end of `read_id` (`43_facade_ops.md` R127): an all-zero identifier is `NoResponse`. -/
def State.endReadId (s : State) : State :=
  if idOfBytes s.resp = 0 then s.raise .noResponse else { s with id := idOfBytes s.resp }.complete

/-- The end of `read` and `fast_read` (`43_facade_ops.md` R128): the response goes to `DST`. -/
def State.endRead (s : State) : State := (s.writeDst s.resp).complete

/-- After the Deselect of the single transaction of an ungated operation (`10_state.md` R27). -/
def afterXfer (s : State) : Res :=
  match s.op with
  | .reset => .next (s.goto .dly .dash)
  | .readId => .next s.endReadId
  | .read => .next s.endRead
  | .fastRead => .next s.endRead
  | _ => .fault .sequencePosition

/-- After the Deselect of the disable step (`10_state.md` R27). -/
def afterDisable (s : State) : Res :=
  match s.op with
  | .eraseSector => .next s.complete
  | .eraseChip => .next s.complete
  | .write => .next s.advance.loopTest
  | _ => .fault .sequencePosition

/-- After the Deselect of a transaction (`10_state.md` R27): a pending failure aborts, else the next stage comes. -/
def afterTxn (s : State) : Res :=
  if s.pending ≠ .ok then .next (s.raise s.pending)
  else
    match s.pc.stage with
    | .en => .next (s.goto .mut .sel)
    | .mut => .next (s.goto .dly .dash)
    | .xfer => afterXfer s
    | .dis => afterDisable s
    | _ => .fault .sequencePosition

/-- Whether a stage is one of the four that run a transaction (`10_state.md` R26). -/
def Stage.hasTxn : Stage → Bool
  | .en => true
  | .mut => true
  | .xfer => true
  | .dis => true
  | _ => false

/-- One step of the transaction `Txn(frame, n)` (`40_wire_instructions.md` R90): the call that `SUB` names. -/
def txnStep (frame : List Byte) (n : Option Nat) (s : State) : Res :=
  if s.pc.stage.hasTxn then
    match s.pc.sub with
    | .sel => .next s.select
    | .tx => .next (s.transmit frame n.isSome)
    | .rx =>
      match n with
      | some n => .next (s.receive n)
      | none => .fault .sequencePosition
    | .desel => afterTxn s.deselect
    | .dash => .refused .noTransactionOpen
  else .refused .noTransactionOpen

/-- The blocking delay after a mutation or after the reset frame (`41_write_gate.md` R107, `43_facade_ops.md` R126). -/
def delayStep (s : State) : Res :=
  match delayOf s.op with
  | none => .fault .sequencePosition
  | some d => .next (if s.op = .reset then (s.delay d).complete else (s.delay d).goto .dis .sel)

/-- What a command finds when it is accepted (`10_state.md` R23). -/
def State.accepted (s : State) (op : Op) : State :=
  { s.markAccepted with op := op, pending := .ok, pc := ⟨.chk, .dash⟩ }

/-- A host write of `CMD` while no operation runs: accepted (`10_state.md` R23) or refused (`60_exceptions.md` R161). -/
def accept (op : Op) (s : State) : Res :=
  if s.busy then .refused .commandWhileBusy
  else if op = .init then (if s.bound then .refused .secondInit else .next (s.accepted op))
  else if s.bound then .next (s.accepted op)
  else .refused .notInitialised

/-- A host write to an operand register, to `CMD` or to a buffer (`10_state.md` R22, R23, R34). -/
def hostWrite (a : HostAct) (s : State) : State :=
  match a with
  | .setPage v => { s with page := s.cfg.hold v }
  | .setOffs v => { s with offs := s.cfg.hold v }
  | .setLen v => { s with len := s.cfg.hold v }
  | .setSect v => { s with sect := s.cfg.hold v }
  | .setPinIn v => { s with pinIn := v }
  | .setSrc bytes => { s with src := bytes }
  | .setDst bytes => { s with dst := bytes }
  | .writeCmd w => { s with cmd := s.cfg.hold w }

/-- Power-on reset of the sequencer alone (`70_reset_and_hazards.md` R170, R171): the configuration and the environment are kept. -/
def State.powerOn (s : State) : State :=
  { State.reset with cfg := s.cfg, dev := s.dev, answers := s.answers, src := s.src, dst := s.dst, port := s.port }

end Sys2Proof.Machine
end

