-- ==== Sys2Proof/Machine/Wire.lean ====
section
/-! DEFINITION. The meanings of the ten wire instructions: each is the transaction of its frame (`40_wire_instructions.md` R91 to R100). -/

namespace Sys2Proof.Machine

/-- `WREN`: `Txn([0x06], absent)` (R91). -/
def execWren (s : State) : Res := txnStep (frameBytes .wren) none s

/-- `WRDI`: `Txn([0x04], absent)` (R92). -/
def execWrdi (s : State) : Res := txnStep (frameBytes .wrdi) none s

/-- `RSTEN`: never sent alone, byte 0 of `Txn([0x66, 0x99], absent)` (R93). -/
def execRsten (s : State) : Res := txnStep (frameBytes .rsten) none s

/-- `RST`: byte 1 of `Txn([0x66, 0x99], absent)` (R94). -/
def execRst (s : State) : Res := txnStep (frameBytes .rst) none s

/-- `RDID`: `Txn([0x9F], 3)` (R95). -/
def execRdid (s : State) : Res := txnStep (frameBytes .rdid) (some Config.idBytes) s

/-- `READ`: `Txn([0x03, A2, A1, A0], LEN)` (R96). -/
def execRead (a : Addr) (s : State) : Res := txnStep (frameBytes (.read a)) (some s.len) s

/-- `FREAD`: `Txn([0x0B, A2, A1, A0, dummy], LEN)` (R97). -/
def execFread (a : Addr) (dummy : Byte) (s : State) : Res := txnStep (frameBytes (.fread a dummy)) (some s.len) s

/-- `PP`: `Txn([0x02, A2, A1, A0] ++ d, absent)` at an address that exists (R98, log 24). -/
def execPp (a : Addr) (d : List Byte) (s : State) : Res :=
  if a.toNat < s.cfg.totalBytes then txnStep (frameBytes (.pp a d)) none s else .fault .flashAddressAbsent

/-- `SE`: `Txn([0x20, A2, A1, A0], absent)` at an address that exists (R99, log 24). -/
def execSe (a : Addr) (s : State) : Res :=
  if a.toNat < s.cfg.totalBytes then txnStep (frameBytes (.se a)) none s else .fault .flashAddressAbsent

/-- `CE`: `Txn([0xC7], absent)` (R100). -/
def execCe (s : State) : Res := txnStep (frameBytes .ce) none s

/-- The meaning of a wire instruction, for the stages of an operation that run one. -/
def execWire (i : Instr) (s : State) : Res :=
  match i with
  | .wren => execWren s
  | .wrdi => execWrdi s
  | .rsten => execRsten s
  | .rst => execRst s
  | .rdid => execRdid s
  | .read a => execRead a s
  | .fread a dummy => execFread a dummy s
  | .pp a d => execPp a d s
  | .se a => execSe a s
  | .ce => execCe s
  | .opReset => .fault .invalidFrame
  | .opReadId => .fault .invalidFrame
  | .opRead => .fault .invalidFrame
  | .opFastRead => .fault .invalidFrame
  | .opEraseSector => .fault .invalidFrame
  | .opEraseChip => .fault .invalidFrame
  | .opWrite => .fault .invalidFrame
  | .opInit => .fault .invalidFrame

/-- Which instruction of the window's frame the call of `SUB` belongs to: the first at Select, the last from Transmit on. They differ
for the reset frame only: `RSTEN` opens the window, `RST` is the one whose failure and effect the spec gives (R93, R94; log 2). -/
def Sub.windowIndex (sub : Sub) (is : List Instr) : Nat := if sub = .sel then 0 else is.length - 1

/-- The wire instruction at the sequence position: the one its frame decodes to. -/
def State.wireInstr (s : State) : Option Instr :=
  match s.frame with
  | none => none
  | some f =>
    match decodeFrame f with
    | .instrs is => is[s.pc.sub.windowIndex is]?
    | .reject _ => none

/-- One step of the transaction at the sequence position. -/
def wireStep (s : State) : Res :=
  match s.wireInstr with
  | some i => execWire i s
  | none => .fault .invalidFrame

end Sys2Proof.Machine
end

