-- ==== Sys2Proof/Machine/HostOps.lean ====
section
/-! DEFINITION. The meanings of the eight host operations: acceptance, the check of stage `CHK`, the transactions, the delay, the end. -/

namespace Sys2Proof.Machine

/-- One step of a host operation at the sequence position (`10_state.md` R27): in `IDLE` it is the host's command, elsewhere it is the
running operation's next step. A command for another operation than the running one comes with `BUSY = 1` (`60_exceptions.md` R161). -/
def hostOp (op : Op) (check : State → Res) (s : State) : Res :=
  if s.pc.stage = .idle then accept op s
  else if s.op ≠ op then .refused .commandWhileBusy
  else
    match s.pc.stage with
    | .idle => accept op s
    | .chk => check s
    | .dly => delayStep s
    | .fin => .next s.finish
    | .en => wireStep s
    | .mut => wireStep s
    | .xfer => wireStep s
    | .dis => wireStep s

/-- Stage `CHK` of an operation without operands and without gate (`43_facade_ops.md` R126, R127). -/
def checkPlain (s : State) : Res := .next (s.goto .xfer .sel)

/-- Stage `CHK` of `read` and `fast_read` (`43_facade_ops.md` R128, R129): the range check, then the host's duty to give room (log 14). -/
def checkRead (s : State) : Res :=
  if s.rangeOk then
    (if s.len ≤ s.dst.length then .next ({ s with base := s.start }.goto .xfer .sel) else .refused .dstTooShort)
  else .next (s.raise .outOfRange)

/-- Stage `CHK` of `erase_sector` (`43_facade_ops.md` R130). -/
def checkEraseSector (s : State) : Res :=
  if s.sectorOk then .next ({ s with base := s.sectorStart }.goto .en .sel) else .next (s.raise .outOfRange)

/-- Stage `CHK` of `erase_chip` (`43_facade_ops.md` R131). -/
def checkEraseChip (s : State) : Res := .next (s.goto .en .sel)

/-- The set-up of `write` (`42_page_write.md` R112). -/
def State.startWrite (s : State) : State :=
  { s with base := s.start, cur := s.start, endAddr := s.start + s.len, rem := Config.pageSize - s.start % Config.pageSize }

/-- Stage `CHK` of `write` (`42_page_write.md` R111, R112): the range check first, then the host's duty (log 14), then the loop. -/
def checkWrite (s : State) : Res :=
  if s.rangeOk then
    (if s.len ≤ s.src.length then .next s.startWrite.loopTest else .refused .srcTooShort)
  else .next (s.raise .outOfRange)

/-- Stage `CHK` of `init` (`43_facade_ops.md` R125). -/
def checkInit (s : State) : Res := .next { s with pinmap := s.pinIn, bound := true }.complete

/-- `reset()` (`43_facade_ops.md` R126). -/
def execOpReset (s : State) : Res := hostOp .reset checkPlain s

/-- `read_id()` (`43_facade_ops.md` R127). -/
def execOpReadId (s : State) : Res := hostOp .readId checkPlain s

/-- `read(start_page, offset, length, dst)` (`43_facade_ops.md` R128). -/
def execOpRead (s : State) : Res := hostOp .read checkRead s

/-- `fast_read(start_page, offset, length, dst)` (`43_facade_ops.md` R129). -/
def execOpFastRead (s : State) : Res := hostOp .fastRead checkRead s

/-- `erase_sector(sector_index)` (`43_facade_ops.md` R130). -/
def execOpEraseSector (s : State) : Res := hostOp .eraseSector checkEraseSector s

/-- `erase_chip()` (`43_facade_ops.md` R131). -/
def execOpEraseChip (s : State) : Res := hostOp .eraseChip checkEraseChip s

/-- `write(start_page, offset, length, src)` (`42_page_write.md` R110). -/
def execOpWrite (s : State) : Res := hostOp .write checkWrite s

/-- `init(pinmap)` (`43_facade_ops.md` R125). -/
def execOpInit (s : State) : Res := hostOp .init checkInit s

end Sys2Proof.Machine
end

