-- ==== Sys2Proof/Machine/Dispatch.lean ====
section
/-! DEFINITION. One arm for each constructor of the instruction set. -/

namespace Sys2Proof.Machine

/-- One step of an instruction. -/
def exec (i : Instr) (s : State) : Host.Outcome State Fault Refusal :=
  match i with
  -- the ten wire instructions
  | .wren => Sys2Proof.Machine.execWren s
  | .wrdi => Sys2Proof.Machine.execWrdi s
  | .rsten => Sys2Proof.Machine.execRsten s
  | .rst => Sys2Proof.Machine.execRst s
  | .rdid => Sys2Proof.Machine.execRdid s
  | .read a => Sys2Proof.Machine.execRead a s
  | .fread a dummy => Sys2Proof.Machine.execFread a dummy s
  | .pp a d => Sys2Proof.Machine.execPp a d s
  | .se a => Sys2Proof.Machine.execSe a s
  | .ce => Sys2Proof.Machine.execCe s
  -- the eight host operations
  | .opReset => Sys2Proof.Machine.execOpReset s
  | .opReadId => Sys2Proof.Machine.execOpReadId s
  | .opRead => Sys2Proof.Machine.execOpRead s
  | .opFastRead => Sys2Proof.Machine.execOpFastRead s
  | .opEraseSector => Sys2Proof.Machine.execOpEraseSector s
  | .opEraseChip => Sys2Proof.Machine.execOpEraseChip s
  | .opWrite => Sys2Proof.Machine.execOpWrite s
  | .opInit => Sys2Proof.Machine.execOpInit s

end Sys2Proof.Machine
end

