-- ==== Sys2Proof/Machine/Fetch.lean ====
section
/-! DEFINITION. What the machine does next: wait, take a host write, or run the instruction of the sequence position; and how a table
word is put where the next step runs it. -/

namespace Sys2Proof.Machine

/-- The instruction of a sequence position that is not `IDLE`: the running operation in `CHK`, `DLY`, `FIN`, the wire instruction in the
four transaction stages (`10_state.md` R26). -/
def State.instrAt (s : State) : Option Instr :=
  match s.pc.stage with
  | .idle => none
  | .chk => some s.op.toInstr
  | .dly => some s.op.toInstr
  | .fin => some s.op.toInstr
  | .en => s.wireInstr
  | .mut => s.wireInstr
  | .xfer => s.wireInstr
  | .dis => s.wireInstr

/-- The host's access that does not wait for `BUSY = 0`, if one comes now. -/
def State.intrusion (s : State) : Option HostAct :=
  match s.port with
  | [] => none
  | a :: _ => if a.waits then none else some a.act

/-- How a host access with `BUSY = 1` is refused: a command by `60_exceptions.md` R161, an operand and a buffer by the host's duties of
`70_reset_and_hazards.md` R187 (`93_implementation_defined.md` U8, log 13). -/
def refusalOf : HostAct → Refusal
  | .writeCmd _ => .commandWhileBusy
  | .setPage _ => .hostAccessWhileBusy
  | .setOffs _ => .hostAccessWhileBusy
  | .setLen _ => .hostAccessWhileBusy
  | .setSect _ => .hostAccessWhileBusy
  | .setPinIn _ => .hostAccessWhileBusy
  | .setSrc _ => .hostAccessWhileBusy
  | .setDst _ => .hostAccessWhileBusy

/-- The state once the host's next access has been taken from the list. -/
def State.popPort (s : State) : State := { s with port := s.port.tail }

/-- What the next step is. -/
inductive Plan
  | wait
  | write (s : State)
  | run (i : Instr) (s : State)
  | refuse (r : Refusal)
  | stop (f : Fault)
  deriving DecidableEq, Repr

/-- In `IDLE` the sequencer waits for the host (`70_reset_and_hazards.md` R170); a host access is one step (log 1). -/
def State.planIdle (s : State) : Plan :=
  match s.port with
  | [] => .wait
  | a :: _ =>
    match a.act with
    | .writeCmd w => .run (decodeCmd (s.cfg.hold w)).toInstr (hostWrite a.act s.popPort)
    | act => if s.busy then .refuse (refusalOf act) else .write (hostWrite act s.popPort)

/-- Elsewhere the running operation goes on, unless the host breaks in. -/
def State.planRunning (s : State) : Plan :=
  match s.intrusion with
  | some act => .refuse (refusalOf act)
  | none =>
    match s.instrAt with
    | some i => .run i s
    | none => .stop .invalidFrame

/-- What the next step is (`10_state.md` R26, R27). -/
def State.plan (s : State) : Plan := if s.pc.stage = .idle then s.planIdle else s.planRunning

/-- The state in which `op` runs and stands at `(stage, sub)`, with nothing coming from the host. -/
def State.placed (s : State) (op : Op) (stage : Stage) (sub : Sub) : State :=
  { s with port := [], busy := true, done := false, bound := true, op := op, pending := .ok, pc := ⟨stage, sub⟩ }

/-- The state in which the next step is the host's command `word`, which is accepted: `init` needs `BOUND = 0`, the others `BOUND = 1`. -/
def State.placedCmd (s : State) (op : Op) (word : Nat) : State :=
  { s with port := [⟨true, .writeCmd word⟩], busy := false, bound := decide (op ≠ .init), pc := ⟨.idle, .dash⟩ }

/-- The state whose next step runs an instruction (log 4): a wire instruction in the stage of an operation that issues it, with the
registers its frame is built from. -/
def State.placeInstr (s : State) (i : Instr) (word : Nat) : State :=
  match i with
  | .wren => s.placed .eraseChip .en .sel
  | .wrdi => s.placed .eraseChip .dis .sel
  | .rsten => s.placed .reset .xfer .sel
  | .rst => { s.placed .reset .xfer .tx with selected := true }
  | .rdid => s.placed .readId .xfer .sel
  | .read a => { s.placed .read .xfer .sel with base := a.toNat }
  | .fread a dummy => { s.placed .fastRead .xfer .sel with base := a.toNat, cfg := { s.cfg with dummy := dummy } }
  | .pp a d =>
    { s.placed .write .mut .sel with
        base := a.toNat, cur := a.toNat, endAddr := a.toNat + d.length, rem := Config.pageSize - a.toNat % Config.pageSize,
        chunk := d.length, src := d, len := d.length }
  | .se a => { s.placed .eraseSector .mut .sel with base := a.toNat }
  | .ce => s.placed .eraseChip .mut .sel
  | .opReset => s.placedCmd .reset word
  | .opReadId => s.placedCmd .readId word
  | .opRead => s.placedCmd .read word
  | .opFastRead => s.placedCmd .fastRead word
  | .opEraseSector => s.placedCmd .eraseSector word
  | .opEraseChip => s.placedCmd .eraseChip word
  | .opWrite => s.placedCmd .write word
  | .opInit => s.placedCmd .init word

end Sys2Proof.Machine
end

