-- ==== Sys2Proof/Machine/Step.lean ====
section
/-! DEFINITION. One step of the machine, and the placing of a table word. -/

namespace Sys2Proof.Machine

/-- One step: one Transport Port call, one internal check, or one access of the host (`00_scope.md` R10, log 1). -/
def step (s : State) : Host.Outcome State Fault Refusal :=
  match s.plan with
  | .wait => .next s
  | .write s' => .next s'
  | .run i s' => exec i s'
  | .refuse r => .refused r
  | .stop f => .fault f

/-- `s` with a table word's instruction placed where the next step runs it (log 4); `s` itself where the word is no instruction. -/
def State.withFetchWord (s : State) (nbits w : Nat) : State :=
  match decodeTableWord nbits w with
  | some i => s.placeInstr i w
  | none => s

end Sys2Proof.Machine
end

