-- ==== Sys2Proof/Safety.lean ====
section
/-! DEFINITION. The terms claims use: an instruction iterated to its end, the traces of the operations in closed form, the chunks of a
write, and the invariants. -/

namespace Sys2Proof

/-- Whether an instruction is a wire instruction. -/
def Instr.isWire (i : Instr) : Bool :=
  match encode i with
  | .frame _ => true
  | .cmd _ => false

/-- The nine values that can be byte 0 of a frame (`30_encoding.md` R79). -/
abbrev firstBytes : List Byte :=
  [Opcode.wren, Opcode.wrdi, Opcode.rsten, Opcode.rdid, Opcode.read, Opcode.fread, Opcode.pp, Opcode.se, Opcode.ce]

end Sys2Proof

namespace Sys2Proof.Machine

/-! Iteration. -/

/-- `k` steps of one instruction, stopping at the first fault or refusal. -/
def iterate (i : Instr) : Nat → State → Res
  | 0, s => .next s
  | k + 1, s =>
    match exec i s with
    | .next t => iterate i k t
    | .fault f => .fault f
    | .refused r => .refused r

/-- The device after a list of events. -/
def Device.play (p : Params) (d : Device) (evs : List Event) : Device := evs.foldl (Device.onEvent p) d

/-- The length of the response phase of a wire instruction (`30_encoding.md` R75). -/
def State.respLen (s : State) (i : Instr) : Option Nat :=
  match i with
  | .rdid => some Config.idBytes
  | .read _ => some s.len
  | .fread _ _ => some s.len
  | _ => none

/-- Whether a coming answer is a failure. -/
def Answer.isErr : Answer → Bool
  | .err _ => true
  | _ => false

/-- The sequencer waits for a command and is initialised. -/
abbrev State.ready (s : State) : Prop := s.pc = ⟨.idle, .dash⟩ ∧ s.busy = false ∧ s.bound = true

/-- The state an operation leaves: its result, `DONE`, `BUSY` fallen, its events, and `n` answers used. -/
def State.afterOp (s : State) (op : Op) (r : Result) (evs : List Event) (n : Nat) : State :=
  { s with op := op, pc := ⟨.idle, .dash⟩, busy := false, done := true, result := r, pending := r, selected := false,
           trace := s.trace ++ evs, dev := s.dev.play s.cfg evs, answers := s.answers.drop n }

/-! Traces in closed form. -/

/-- A transaction without response phase that succeeds (`40_wire_instructions.md` R90). -/
def txnTrace (f : List Byte) : List Event := [.sel, .tx f .ok, .desel]

/-- A transaction with a response phase that succeeds. -/
def rxnTrace (f : List Byte) (bytes : List Byte) : List Event := [.sel, .tx f .ok, .rx bytes.length (.ok bytes), .desel]

/-- A transaction whose Transmit fails; the Deselect is made where `DESELECT_ON_FAIL` says so (R90). -/
def txnFailTrace (f : List Byte) (k : ErrKind) (deselect : Bool) : List Event :=
  [.sel, .tx f (.err k)] ++ (if deselect then [.desel] else [])

/-- The gated mutation that succeeds (`41_write_gate.md` R107). -/
def gateTrace (f : List Byte) (d : DelayParam) : List Event :=
  txnTrace [Opcode.wren] ++ txnTrace f ++ [.dly d] ++ txnTrace [Opcode.wrdi]

/-- The gated mutation whose Transmit number `m` (0 enable, 1 mutation, 2 disable) fails, the last Deselect being made where
`DESELECT_ON_FAIL` says so (R107, R90). -/
def gateFailTrace (f : List Byte) (d : DelayParam) (k : ErrKind) (deselect : Bool) (m : Nat) : List Event :=
  if m = 0 then txnFailTrace [Opcode.wren] k deselect
  else if m = 1 then txnTrace [Opcode.wren] ++ txnFailTrace f k deselect
  else txnTrace [Opcode.wren] ++ txnTrace f ++ [.dly d] ++ txnFailTrace [Opcode.wrdi] k deselect

/-- The number of chunks of a write (`42_page_write.md` R118). -/
def chunkCount (base len : Nat) : Nat := if len = 0 then 0 else (base + len - 1) / 256 - base / 256 + 1

/-- The address of chunk `j` (`42_page_write.md` R119). -/
def chunkAddr (base j : Nat) : Nat := if j = 0 then base else 256 * (base / 256 + j)

/-- The length of chunk `j` (`42_page_write.md` R119). -/
def chunkLen (base len j : Nat) : Nat :=
  if j = 0 then min (256 - base % 256) len else min 256 (base + len - chunkAddr base j)

/-- The `PP` frame of chunk `j` of a write of `src` at `base` (`42_page_write.md` R114). -/
def chunkFrame (src : List Byte) (base len j : Nat) : List Byte :=
  Opcode.pp :: (addrBytes (chunkAddr base j) ++ (src.drop (chunkAddr base j - base)).take (chunkLen base len j))

/-- The trace of the first `n` chunks, each gated (`42_page_write.md` R114). -/
def chunksTrace (src : List Byte) (base len n : Nat) : List Event :=
  (List.range n).flatMap (fun j => gateTrace (chunkFrame src base len j) .tPp)

/-- The milliseconds of blocking delay a trace asks for (`70_reset_and_hazards.md` R190). -/
def delayTotal : List Event → Nat
  | [] => 0
  | .dly d :: evs => Config.delayMs d + delayTotal evs
  | .sel :: evs => delayTotal evs
  | .desel :: evs => delayTotal evs
  | .tx _ _ :: evs => delayTotal evs
  | .rx _ _ :: evs => delayTotal evs

/-! What a call may store to in the array. -/

/-- The frame that bounds an event's effect on the array: the window's at its Deselect, the window's with the failed bytes at a
Transmit that fails before a device of the source alone. -/
def Device.frameAt (d : Device) (e : Event) : WinFrame :=
  match e with
  | .desel => d.meant d.win
  | .tx bytes (.err _) => if d.kind = .general then d.meant (d.win ++ bytes) else .nothing
  | _ => .nothing

/-- Whether an event may store to a flash address: the event completes a mutating frame whose target range holds the address. -/
def Device.storesTo (p : Params) (d : Device) (e : Event) (a : Nat) : Bool :=
  (d.frameAt e).mutates && decide (targetLo (d.frameAt e) ≤ a ∧ a < targetHi p (d.frameAt e))

/-! The write gate as an automaton over the trace. -/

/-- Where a trace stands with the write gate. -/
inductive GateState
  | cold
  | opened
  | enabling
  | armed
  | armedOpen
  deriving DecidableEq, Repr

/-- One event: a mutating frame may be transmitted only in the window that follows a complete `WREN` transaction with no call between
(`41_write_gate.md` R105, `70_reset_and_hazards.md` R181). -/
def gateNext (g : GateState) (e : Event) : Option GateState :=
  match e with
  | .sel => if g = .armed then some .armedOpen else some .opened
  | .desel => if g = .enabling then some .armed else some .cold
  | .dly _ => some .cold
  | .rx _ _ => some .cold
  | .tx f a =>
    if frameMutates f then (if g = .armedOpen then some .cold else none)
    else if f = [Opcode.wren] ∧ a = .ok ∧ g = .opened then some .enabling
    else some .cold

/-- The gate after a whole trace; nothing where a mutating frame came without its `WREN`. -/
def gateAfter (evs : List Event) : Option GateState := evs.foldl (fun g e => g.bind (gateNext · e)) (some .cold)

/-! Invariants. -/

/-- The operations that run the write gate (`41_write_gate.md`). -/
def Op.gated : Op → Bool
  | .write => true
  | .eraseSector => true
  | .eraseChip => true
  | _ => false

/-- The operations of one ungated transaction. -/
def Op.single : Op → Bool
  | .reset => true
  | .readId => true
  | .read => true
  | .fastRead => true
  | _ => false

/-- The response length of an operation's transaction (`10_state.md` R27: only `read_id`, `read`, `fast_read` have one). -/
def State.opRespLen (s : State) : Option Nat :=
  match s.op with
  | .readId => some Config.idBytes
  | .read => some s.len
  | .fastRead => some s.len
  | _ => none

/-- The sequence position is one that `10_state.md` R27 reaches with the running operation. -/
abbrev State.posInv (s : State) : Prop :=
  (s.pc.sub = .dash ↔ s.pc.stage.hasTxn = false) ∧
  (s.pc.stage ∈ [Stage.en, .mut, .dis] → Op.gated s.op = true) ∧
  (s.pc.stage = .xfer → Op.single s.op = true) ∧
  (s.pc.stage = .dly → (delayOf s.op).isSome = true) ∧
  (s.pc.sub = .rx → s.pc.stage = .xfer ∧ s.opRespLen.isSome = true)

/-- `BUSY` says that an operation runs, `BUSY` and `DONE` are never both 1 (`10_state.md` R26, R28), and only an initialised sequencer
runs an operation other than `init`, and `init` starts on one that is not (R23). -/
abbrev State.flagInv (s : State) : Prop :=
  (s.busy = true ↔ s.pc.stage ≠ .idle) ∧ ¬(s.busy = true ∧ s.done = true) ∧ (s.busy = true → s.op ≠ .init → s.bound = true) ∧
    (s.pc.stage = .chk → s.op = .init → s.bound = false)

/-- `SELECTED` is 1 inside a window, and 0 outside one with `DESELECT_ON_FAIL` (`10_state.md` R30). -/
abbrev State.selInv (s : State) : Prop :=
  (s.pc.sub ∈ [Sub.tx, .rx, .desel] → s.selected = true) ∧
  (s.cfg.deselectOnFail = true → s.pc.sub ∈ [Sub.sel, .dash] → s.selected = false)

/-- A failure is pending only at the Deselect of the failed transaction and at `(FIN,-)` (`10_state.md` R27). -/
abbrev State.pendInv (s : State) : Prop := s.pending ≠ .ok → s.pc.stage ∈ [Stage.idle, .fin] ∨ s.pc.sub = .desel

/-- The working registers while the operation that uses them runs its transactions (`10_state.md` R24, `42_page_write.md` R112 to R115). -/
abbrev State.rangeInv (s : State) : Prop :=
  (s.op = .write → s.pc.stage ∈ [Stage.en, .mut, .dly, .dis] →
    s.base = s.start ∧ s.endAddr = s.base + s.len ∧ s.endAddr ≤ s.cfg.totalBytes ∧ s.base ≤ s.cur ∧ s.cur < s.endAddr ∧
      s.rem = 256 - s.cur % 256 ∧ s.chunk = min s.rem (s.endAddr - s.cur) ∧ s.len ≤ s.src.length) ∧
  (s.op ∈ [Op.read, .fastRead] → s.pc.stage = .xfer →
    s.base = s.start ∧ s.base + s.len ≤ s.cfg.totalBytes ∧ s.len ≤ s.dst.length) ∧
  (s.op = .eraseSector → s.pc.stage ∈ [Stage.en, .mut, .dly, .dis] → s.base = s.sectorStart ∧ s.sectorOk = true)

/-- The response has the length that was asked for, between the Receive and the end of the transaction. -/
abbrev State.respInv (s : State) : Prop :=
  s.pc.stage = .xfer → s.pc.sub = .desel → s.pending = .ok → ∀ n ∈ s.opRespLen, s.resp.length = n

/-- The operand registers and `CMD` are numbers of `OPW` bits (`10_state.md` R22, R23). -/
abbrev State.widthInv (s : State) : Prop := ∀ v ∈ [s.page, s.offs, s.len, s.sect, s.cmd], v < 2 ^ s.cfg.opw

/-- The invariant of the machine. -/
structure Inv (s : State) : Prop where
  cfg : s.cfg.wf
  width : s.widthInv
  pos : s.posInv
  flags : s.flagInv
  sel : s.selInv
  pend : s.pendInv
  range : s.rangeInv
  resp : s.respInv
  mem : s.dev.flash.wf

/-- The invariant of the write gate: no mutating frame was ever transmitted without its `WREN`, and the trace stands where the sequence
position says. -/
structure GateInv (s : State) : Prop where
  everGated : (gateAfter s.trace).isSome = true
  enOpen : s.pc = ⟨.en, .tx⟩ → gateAfter s.trace = some .opened
  enSent : s.pc = ⟨.en, .desel⟩ → s.pending = .ok → gateAfter s.trace = some .enabling
  mutSel : s.pc = ⟨.mut, .sel⟩ → gateAfter s.trace = some .armed
  mutOpen : s.pc = ⟨.mut, .tx⟩ → gateAfter s.trace = some .armedOpen
  enablingAt : gateAfter s.trace = some .enabling → s.pc = ⟨.en, .desel⟩ ∧ s.pending = .ok
  armedAt : gateAfter s.trace = some .armed → s.pc = ⟨.mut, .sel⟩

end Sys2Proof.Machine
end

