-- ==== Sys2Proof/Certificates/Slice0/Obligations.lean ====
section
/-! DEFINITION. The statements for the provers. "events" are those of `00_scope.md` R9; `iterate i k` is `k` steps of one instruction. -/

open Sys2Proof Sys2Proof.Machine

/-! Encoding. -/

/-- `30_encoding.md` R78: the ten opcodes, wire-exact, pairwise different, each byte 0 of its frame but `RST`, byte 1 after `0x66`;
the frame and the response phase of each are those of its format. -/
def Obligations.OpcodesMatchTheTable : Prop :=
  frameBytes .wren = [0x06] ∧ frameBytes .wrdi = [0x04] ∧ frameBytes .rsten = [0x66, 0x99] ∧ frameBytes .rst = [0x66, 0x99] ∧
  frameBytes .rdid = [0x9F] ∧ frameBytes .ce = [0xC7] ∧
  (∀ a, frameBytes (.read a) = 0x03 :: addrBytes a.toNat) ∧
  (∀ a x, frameBytes (.fread a x) = 0x0B :: (addrBytes a.toNat ++ [x])) ∧
  (∀ a d, frameBytes (.pp a d) = 0x02 :: (addrBytes a.toNat ++ d)) ∧
  (∀ a, frameBytes (.se a) = 0x20 :: addrBytes a.toNat) ∧
  ([0x06, 0x04, 0x66, 0x99, 0x9F, 0x03, 0x0B, 0x02, 0x20, 0xC7] : List Byte).Nodup ∧
  ∀ s : State, s.respLen .rdid = some 3 ∧ (∀ a, s.respLen (.read a) = some s.len) ∧
    (∀ a x, s.respLen (.fread a x) = some s.len) ∧ (∀ a d, s.respLen (.pp a d) = none) ∧ (∀ a, s.respLen (.se a) = none) ∧
    ∀ i ∈ [Instr.wren, .wrdi, .rsten, .rst, .ce], s.respLen i = none

/-- Frames written out byte by byte from `30_encoding.md` R71 and R78 (`95_test_vectors.md` 2.1), and two command words of R80. -/
def Obligations.WrittenOutWordsDecode : Prop :=
  decodeFrame [0x06] = .instrs [.wren] ∧ decodeFrame [0x66, 0x99] = .instrs [.rsten, .rst] ∧
  decodeFrame [0x03, 0x12, 0x34, 0x56] = .instrs [.read 0x123456] ∧
  decodeFrame [0x0B, 0x12, 0x34, 0x56, 0x00] = .instrs [.fread 0x123456 0x00] ∧
  decodeFrame [0x20, 0xFF, 0xF0, 0x00] = .instrs [.se 0xFFF000] ∧
  decodeFrame [0x02, 0x00, 0x00, 0xFE, 0x11, 0x22] = .instrs [.pp 0x0000FE [0x11, 0x22]] ∧
  decode (.cmd 0x00000006) = .instrs [.opWrite] ∧ decode (.cmd 0xFFFFFFF9) = .instrs [.opReadId]

/-- Decode and encode agree: decoding the encoding of any well-formed instruction gives that instruction, with every operand, at its
place in the window (`30_encoding.md` R71, R78, R80). -/
def Obligations.DecodeTakesBackEveryEncoding : Prop :=
  ∀ i : Instr, i.wf = true → (decode (encode i)).at (windowIndex i) = some i

/-- The other direction, for frames: a window that decodes is the frame of every instruction it decodes to, so each window has one
meaning (`30_encoding.md` R71, R76). -/
def Obligations.EveryDecodedFrameEncodesBack : Prop :=
  ∀ (bytes : List Byte) (is : List Instr), decodeFrame bytes = .instrs is → is ≠ [] ∧ ∀ i ∈ is, frameBytes i = bytes

/-- `30_encoding.md` R79: a window whose byte 0 is none of the nine first bytes is invalid, whatever follows. -/
def Obligations.OtherFirstBytesAreInvalid : Prop :=
  ∀ (b : Byte) (rest : List Byte), b ∉ firstBytes → decodeFrame (b :: rest) = .reject (.unknownOpcode b)

/-- `30_encoding.md` R72: the address bytes, most significant first, with nothing lost below `2^24`; `2^24` itself is sent as zeros. -/
def Obligations.AddressBytesMostSignificantFirst : Prop :=
  (∀ a : Nat, addrBytes a = [lo8 (a / 65536), lo8 (a / 256), lo8 a]) ∧
  (∀ a : Nat, a < 2 ^ 24 → (lo8 (a / 65536)).toNat = a / 65536 ∧ (lo8 (a / 256)).toNat = a / 256 % 256 ∧ (lo8 a).toNat = a % 256) ∧
  addrBytes (2 ^ 24) = [0x00, 0x00, 0x00]

/-- `30_encoding.md` R80, R81: the low three bits of a command word name the operation, the others are ignored; a `CMD` of any legal width
keeps them. -/
def Obligations.CommandWordNamesItsOperation : Prop :=
  (∀ w v : Nat, w % 8 = v % 8 → decode (.cmd w) = decode (.cmd v)) ∧
  (List.range 8).map opOfCode = [.reset, .readId, .read, .fastRead, .eraseSector, .eraseChip, .write, .init] ∧
  (∀ w : Nat, decodeCmd w = opOfCode (w % 8)) ∧
  ∀ (p : Params) (w : Nat), p.wf → decodeCmd (p.hold w) = decodeCmd w

/-! The step. -/

/-- A step runs the decoded instruction. Outside `IDLE` it is the instruction of the sequence position: in `CHK`, `DLY`, `FIN` the running
operation, in a transaction stage what the position's frame decodes to (the reset frame carries `RSTEN`, which opens the window, and
`RST`, to which Transmit and Deselect belong: the model's choice, log 2). In `IDLE` it is the host's command, taken from the port and
latched in `CMD` with `OPW` bits; with nothing from the host the idle sequencer waits. -/
def Obligations.StepRunsTheInstructionAtThePosition : Prop :=
  (∀ (s : State) (i : Instr), s.pc.stage ≠ .idle → s.intrusion = none → s.instrAt = some i → step s = exec i s) ∧
  (∀ s : State, s.pc.stage ∈ [Stage.chk, .dly, .fin] → s.instrAt = some s.op.toInstr) ∧
  (∀ (s : State) (f : List Byte) (i : Instr), s.pc.stage.hasTxn = true → s.frame = some f → decodeFrame f = .instrs [i] →
    s.instrAt = some i) ∧
  (∀ s : State, s.pc.stage = .xfer → s.op = .reset → s.instrAt = some (if s.pc.sub = .sel then .rsten else .rst)) ∧
  (∀ (s : State) (b : Bool) (w : Nat) (rest : List HostAction), s.pc.stage = .idle → s.port = ⟨b, .writeCmd w⟩ :: rest →
    step s = exec (decodeCmd (s.cfg.hold w)).toInstr { s with port := rest, cmd := s.cfg.hold w }) ∧
  (∀ s : State, s.pc.stage = .idle → s.port = [] → step s = .next s)

/-- `00_scope.md` R10: a step is at most one Transport Port call: it appends at most one event to the trace, and the device changes by that
event and by nothing else (`10_state.md` R20). -/
def Obligations.StepMakesAtMostOnePortCall : Prop :=
  ∀ s t : State, step s = .next t →
    ∃ evs : List Event, evs.length ≤ 1 ∧ t.trace = s.trace ++ evs ∧ t.dev = s.dev.play s.cfg evs

/-- In a transaction stage, a step of the running operation is a step of the wire instruction at the position. -/
def Obligations.OperationStepIsItsWireInstructionsStep : Prop :=
  ∀ (s : State) (i : Instr), s.pc.stage.hasTxn = true → s.instrAt = some i → exec s.op.toInstr s = exec i s

/-- A run follows its instruction: from a command on the port, the machine's steps are the steps of the operation's instruction, as long as
the operation has not returned and the host does not break in. -/
def Obligations.RunOfACommandFollowsItsInstruction : Prop :=
  ∀ (s : State) (b : Bool) (w : Nat) (rest : List HostAction) (k : Nat),
    s.pc.stage = .idle → s.port = ⟨b, .writeCmd w⟩ :: rest → (∀ a ∈ rest.head?, a.waits = true) →
    let i := (decodeCmd (s.cfg.hold w)).toInstr
    let given : State := { s with port := rest, cmd := s.cfg.hold w }
    (∀ j u, 0 < j → j ≤ k → iterate i j given = .next u → u.pc.stage ≠ .idle) →
    (Host.Core.run Sys2Proof.core (k + 1) s : Res) = iterate i (k + 1) given

/-! Acceptance and the host's accesses. -/

/-- `10_state.md` R23: a command is accepted when `BUSY = 0` and either `BOUND = 1` or it is `init`, and not `init` with `BOUND = 1`; then
`OP`, `BUSY`, `DONE`, `pc` are written (and no failure is pending), and nothing else. -/
def Obligations.CommandIsAccepted : Prop :=
  ∀ (o : Op) (s : State), s.pc.stage = .idle → s.busy = false → (s.bound = true ∧ o ≠ .init ∨ s.bound = false ∧ o = .init) →
    exec o.toInstr s = .next { s with op := o, busy := true, done := false, pending := .ok, pc := ⟨.chk, .dash⟩ }

/-- `60_exceptions.md` R161: a command is not accepted (a) with `BUSY = 1`, (b) before `init`, (c) for a second `init`; the model refuses. -/
def Obligations.UnacceptedCommandIsRefused : Prop :=
  (∀ (o : Op) (s : State), s.pc.stage = .idle → s.busy = true → exec o.toInstr s = .refused .commandWhileBusy) ∧
  (∀ (o : Op) (s : State), s.pc.stage ≠ .idle → s.op ≠ o → exec o.toInstr s = .refused .commandWhileBusy) ∧
  (∀ (s : State) (w : Nat) (rest : List HostAction), s.pc.stage ≠ .idle → s.port = ⟨false, .writeCmd w⟩ :: rest →
    step s = .refused .commandWhileBusy) ∧
  (∀ (o : Op) (s : State), s.pc.stage = .idle → s.busy = false → s.bound = false → o ≠ .init →
    exec o.toInstr s = .refused .notInitialised) ∧
  (∀ s : State, s.pc.stage = .idle → s.busy = false → s.bound = true → exec .opInit s = .refused .secondInit)

/-- `10_state.md` R22, R34: while idle, a host access is a step that writes its register, with `OPW` bits, or its buffer, and nothing else;
with `BUSY = 1` an access to an operand, to the pin mapping or to a buffer is refused (`70_reset_and_hazards.md` R187,
`93_implementation_defined.md` U8; log 13). That a number wider than `OPW` bits is cut to its low `OPW` bits is the model's choice, not R22's or
R34's (log 10). -/
def Obligations.HostWritesItsRegisters : Prop :=
  (∀ (s : State) (b : Bool) (rest : List HostAction) (v n : Nat) (bytes : List Byte), s.pc.stage = .idle → s.busy = false →
    (s.port = ⟨b, .setPage v⟩ :: rest → step s = .next { s with port := rest, page := s.cfg.hold v }) ∧
    (s.port = ⟨b, .setOffs v⟩ :: rest → step s = .next { s with port := rest, offs := s.cfg.hold v }) ∧
    (s.port = ⟨b, .setLen v⟩ :: rest → step s = .next { s with port := rest, len := s.cfg.hold v }) ∧
    (s.port = ⟨b, .setSect v⟩ :: rest → step s = .next { s with port := rest, sect := s.cfg.hold v }) ∧
    (s.port = ⟨b, .setPinIn n⟩ :: rest → step s = .next { s with port := rest, pinIn := n }) ∧
    (s.port = ⟨b, .setSrc bytes⟩ :: rest → step s = .next { s with port := rest, src := bytes }) ∧
    (s.port = ⟨b, .setDst bytes⟩ :: rest → step s = .next { s with port := rest, dst := bytes })) ∧
  (∀ (s : State) (a : HostAct) (rest : List HostAction), s.pc.stage ≠ .idle → s.port = ⟨false, a⟩ :: rest →
    (∀ w, a ≠ .writeCmd w) → step s = .refused .hostAccessWhileBusy)

/-! Stage `CHK`. -/

/-- `60_exceptions.md` R143: in stage `CHK` an operation raises `OutOfRange` by exactly the conditions of the table, with no Transport Port
call and no working register written. -/
def Obligations.OutOfRangeIsRaisedExactlyByTheTable : Prop :=
  ∀ s : State, s.pc.stage = .chk → s.pending = .ok →
    let cond := (s.op ∈ [Op.write, .read, .fastRead] ∧ s.page * 256 + s.offs + s.len > s.cfg.totalBytes) ∨
      (s.op = .eraseSector ∧ s.sect ≥ s.cfg.totalSectors)
    (cond → ∃ t, exec s.op.toInstr s = .next t ∧ t.pending = .outOfRange ∧ t.pc = ⟨.fin, .dash⟩ ∧ t.trace = s.trace ∧ t.dev = s.dev ∧
      t.answers = s.answers ∧ t.base = s.base ∧ t.cur = s.cur ∧ t.endAddr = s.endAddr ∧ t.rem = s.rem ∧ t.chunk = s.chunk ∧
      t.id = s.id ∧ t.bound = s.bound ∧ t.pinmap = s.pinmap ∧ t.selected = s.selected) ∧
    (¬cond → ∀ t, exec s.op.toInstr s = .next t → t.pending = .ok)

/-- Stage `CHK` of every operation whose check passes (`43_facade_ops.md` R125 to R131, `42_page_write.md` R111 to R113): where it goes, and
what it writes. The buffer conditions are the host's duties of `20_memory.md` R41. -/
def Obligations.ChecksThatPassGoOn : Prop :=
  ∀ s : State, s.pc.stage = .chk →
    (s.op = .reset → exec .opReset s = .next { s with pc := ⟨.xfer, .sel⟩ }) ∧
    (s.op = .readId → exec .opReadId s = .next { s with pc := ⟨.xfer, .sel⟩ }) ∧
    (s.op = .eraseChip → exec .opEraseChip s = .next { s with pc := ⟨.en, .sel⟩ }) ∧
    (s.op = .init → exec .opInit s = .next { s with pinmap := s.pinIn, bound := true, pending := .ok, pc := ⟨.fin, .dash⟩ }) ∧
    (s.op = .eraseSector → s.sect < s.cfg.totalSectors →
      exec .opEraseSector s = .next { s with base := s.sect * 4096, pc := ⟨.en, .sel⟩ }) ∧
    (s.page * 256 + s.offs + s.len ≤ s.cfg.totalBytes →
      (s.op = .read → s.len ≤ s.dst.length →
        exec .opRead s = .next { s with base := s.page * 256 + s.offs, pc := ⟨.xfer, .sel⟩ }) ∧
      (s.op = .fastRead → s.len ≤ s.dst.length →
        exec .opFastRead s = .next { s with base := s.page * 256 + s.offs, pc := ⟨.xfer, .sel⟩ }) ∧
      (s.op = .write → s.len ≤ s.src.length →
        let start := s.page * 256 + s.offs
        let set : State := { s with base := start, cur := start, endAddr := start + s.len, rem := 256 - start % 256 }
        (s.len = 0 → exec .opWrite s = .next { set with pending := .ok, pc := ⟨.fin, .dash⟩ }) ∧
        (s.len ≠ 0 →
          exec .opWrite s = .next { set with chunk := min (256 - start % 256) s.len, pc := ⟨.en, .sel⟩ })))

/-- `20_memory.md` R41: a request in range whose buffer is shorter than `LEN` is refused. That the refusal comes after the range check is
the model's choice (log 14). -/
def Obligations.ShortBufferIsRefused : Prop :=
  ∀ s : State, s.pc.stage = .chk → s.page * 256 + s.offs + s.len ≤ s.cfg.totalBytes →
    (s.op = .write → s.src.length < s.len → exec .opWrite s = .refused .srcTooShort) ∧
    (s.op = .read → s.dst.length < s.len → exec .opRead s = .refused .dstTooShort) ∧
    (s.op = .fastRead → s.dst.length < s.len → exec .opFastRead s = .refused .dstTooShort)

/-! The transaction, for every wire instruction whose address exists. -/

/-- `40_wire_instructions.md` R90, Select: one `SEL` event, `SELECTED` is 1, Transmit comes next; nothing else changes. -/
def Obligations.SelectOpensTheWindow : Prop :=
  ∀ (i : Instr) (s : State), i.isWire = true → i.fits s.cfg = true → s.pc.stage.hasTxn = true → s.pc.sub = .sel →
    exec i s = .next { s with trace := s.trace ++ [.sel], dev := s.dev.onEvent s.cfg .sel, selected := true,
                              pc := ⟨s.pc.stage, .tx⟩ }

/-- `40_wire_instructions.md` R90, Transmit: one `TX` event with the whole frame; on `ok` the response phase or the Deselect comes next; on
`err(k)` the translated failure is pending and the Deselect comes next, or, with `DESELECT_ON_FAIL` false, the operation is aborted. -/
def Obligations.TransmitSendsTheFrame : Prop :=
  ∀ (i : Instr) (s : State), i.isWire = true → i.fits s.cfg = true → s.pc.stage.hasTxn = true → s.pc.sub = .tx →
    (s.txAnswer = .ok →
      exec i s = .next { s with trace := s.trace ++ [.tx (frameBytes i) .ok], dev := s.dev.onEvent s.cfg (.tx (frameBytes i) .ok),
                                answers := s.answers.tail,
                                pc := ⟨s.pc.stage, if (s.respLen i).isSome then .rx else .desel⟩ }) ∧
    (∀ k, s.txAnswer = .err k → s.cfg.deselectOnFail = true →
      exec i s = .next { s with trace := s.trace ++ [.tx (frameBytes i) (.err k)],
                                dev := s.dev.onEvent s.cfg (.tx (frameBytes i) (.err k)), answers := s.answers.tail,
                                pending := translate k, pc := ⟨s.pc.stage, .desel⟩ }) ∧
    (∀ k, s.txAnswer = .err k → s.cfg.deselectOnFail = false →
      ∃ t, exec i s = .next t ∧ t.trace = s.trace ++ [.tx (frameBytes i) (.err k)] ∧ t.pending = translate k ∧
        t.pc = ⟨.fin, .dash⟩ ∧ t.selected = s.selected ∧ t.answers = s.answers.tail)

/-- `40_wire_instructions.md` R90, Receive, in the response phase of `RDID` (3 bytes), `READ` and `FREAD` (`LEN` bytes): one `RX` event; on `ok`
as many bytes as were asked for are held and the Deselect comes next; on `err(k)` as for Transmit. -/
def Obligations.ReceiveTakesTheResponse : Prop :=
  ∀ (i : Instr) (s : State) (n : Nat), i.isWire = true → s.pc.stage.hasTxn = true → s.pc.sub = .rx → s.respLen i = some n →
    (∀ bytes, s.rxAnswer n = .ok bytes → bytes.length = n ∧
      exec i s = .next { s with trace := s.trace ++ [.rx n (.ok bytes)], dev := s.dev.onEvent s.cfg (.rx n (.ok bytes)),
                                answers := s.answers.tail, resp := bytes, pc := ⟨s.pc.stage, .desel⟩ }) ∧
    (∀ k, s.rxAnswer n = .err k → s.cfg.deselectOnFail = true →
      exec i s = .next { s with trace := s.trace ++ [.rx n (.err k)], dev := s.dev.onEvent s.cfg (.rx n (.err k)),
                                answers := s.answers.tail, pending := translate k, pc := ⟨s.pc.stage, .desel⟩ }) ∧
    (∀ k, s.rxAnswer n = .err k → s.cfg.deselectOnFail = false →
      ∃ t, exec i s = .next t ∧ t.trace = s.trace ++ [.rx n (.err k)] ∧ t.pending = translate k ∧ t.pc = ⟨.fin, .dash⟩ ∧
        t.selected = s.selected ∧ t.answers = s.answers.tail)

/-- `60_exceptions.md` R142: a failed Transmit of any wire instruction and a failed Receive of any that has a response phase leave the
translated failure: busy and timeout as `NoResponse`, the rest as `TransportError`. -/
def Obligations.TransportErrorsAreTranslated : Prop :=
  ∀ (i : Instr) (s : State) (k : ErrKind) (rest : List Answer), i.isWire = true → i.fits s.cfg = true → s.pc.stage.hasTxn = true →
    s.answers = .err k :: rest → (s.pc.sub = .tx ∨ s.pc.sub = .rx ∧ (s.respLen i).isSome = true) →
    ∃ t, exec i s = .next t ∧
      (k = .busy → t.pending = .noResponse) ∧ (k = .timeout → t.pending = .noResponse) ∧ (k = .fail → t.pending = .transportError)

/-- `60_exceptions.md` R147: at the Deselect of a failed transaction the operation is aborted: the one event is that `DESEL`, the step
`(FIN,-)` comes next with the failure, and (`R148`) the session, the operands, the working registers and the flags are kept. -/
def Obligations.FailedTransactionAborts : Prop :=
  ∀ (i : Instr) (s : State), i.isWire = true → i.fits s.cfg = true → s.pc.stage.hasTxn = true → s.pc.sub = .desel → s.pending ≠ .ok →
    ∃ t, exec i s = .next t ∧ t.trace = s.trace ++ [.desel] ∧ t.pending = s.pending ∧ t.pc = ⟨.fin, .dash⟩ ∧ t.selected = false ∧
      t.dev = s.dev.onEvent s.cfg .desel ∧ t.answers = s.answers ∧ t.op = s.op ∧
      t.bound = s.bound ∧ t.pinmap = s.pinmap ∧ t.page = s.page ∧ t.offs = s.offs ∧ t.len = s.len ∧ t.sect = s.sect ∧
      t.base = s.base ∧ t.cur = s.cur ∧ t.endAddr = s.endAddr ∧ t.rem = s.rem ∧ t.chunk = s.chunk ∧
      t.busy = s.busy ∧ t.done = s.done ∧ t.result = s.result ∧ t.cfg = s.cfg ∧ t.src = s.src

/-- `WREN`, whole (`40_wire_instructions.md` R91, `41_write_gate.md` R105): one transaction of the frame `[0x06]`, and the mutating
transaction comes next. -/
def Obligations.WriteEnableIsOneTransaction : Prop :=
  ∀ s : State, s.pc = ⟨.en, .sel⟩ → s.pending = .ok → s.txAnswer = .ok →
    iterate .wren 3 s = .next { s with trace := s.trace ++ txnTrace [0x06], dev := s.dev.play s.cfg (txnTrace [0x06]),
                                       answers := s.answers.tail, selected := false, pc := ⟨.mut, .sel⟩ }

/-- `PP`, `SE` and `CE`, whole (`40_wire_instructions.md` R98 to R100): one transaction of the frame, and the fixed delay comes next. -/
def Obligations.MutatingInstructionIsOneTransaction : Prop :=
  ∀ (s : State) (a : Addr) (d : List Byte) (i : Instr), i ∈ [Instr.pp a d, .se a, .ce] → a.toNat < s.cfg.totalBytes →
    s.pc = ⟨.mut, .sel⟩ → s.pending = .ok → s.txAnswer = .ok →
    iterate i 3 s = .next { s with trace := s.trace ++ txnTrace (frameBytes i), dev := s.dev.play s.cfg (txnTrace (frameBytes i)),
                                   answers := s.answers.tail, selected := false, pc := ⟨.dly, .dash⟩ }

/-- `WRDI`, whole (`40_wire_instructions.md` R92, `41_write_gate.md` R106): one transaction of the frame `[0x04]`; an erase then ends with
`Ok`, a write advances by the chunk (`42_page_write.md` R115) and goes on with the next chunk or ends. -/
def Obligations.WriteDisableIsOneTransaction : Prop :=
  ∀ s : State, s.pc = ⟨.dis, .sel⟩ → s.pending = .ok → s.txAnswer = .ok →
    let sent : State := { s with trace := s.trace ++ txnTrace [0x04], dev := s.dev.play s.cfg (txnTrace [0x04]),
                                 answers := s.answers.tail, selected := false }
    (s.op ∈ [Op.eraseSector, .eraseChip] → iterate .wrdi 3 s = .next { sent with pc := ⟨.fin, .dash⟩ }) ∧
    (s.op = .write → s.cur + s.chunk < s.endAddr →
      iterate .wrdi 3 s = .next { sent with cur := s.cur + s.chunk, rem := 256, chunk := min 256 (s.endAddr - (s.cur + s.chunk)),
                                            pc := ⟨.en, .sel⟩ }) ∧
    (s.op = .write → ¬s.cur + s.chunk < s.endAddr →
      iterate .wrdi 3 s = .next { sent with cur := s.cur + s.chunk, rem := 256, pc := ⟨.fin, .dash⟩ })

/-- `RSTEN` and `RST`, whole (`40_wire_instructions.md` R93, R94): each is the one transaction of the two-byte frame, with no Deselect
between the bytes; the recovery delay comes next (`43_facade_ops.md` R126). -/
def Obligations.ResetFrameIsOneTransaction : Prop :=
  ∀ (s : State) (i : Instr), i ∈ [Instr.rsten, .rst] → s.pc = ⟨.xfer, .sel⟩ → s.op = .reset → s.pending = .ok → s.txAnswer = .ok →
    iterate i 3 s = .next { s with trace := s.trace ++ txnTrace [0x66, 0x99], dev := s.dev.play s.cfg (txnTrace [0x66, 0x99]),
                                   answers := s.answers.tail, selected := false, pc := ⟨.dly, .dash⟩ }

/-- `RDID`, whole (`40_wire_instructions.md` R95, `43_facade_ops.md` R127): one transaction with three response bytes, combined big-endian
into `ID`; an all-zero response is `NoResponse`. The bytes are any the environment answers with. -/
def Obligations.IdentifyIsOneTransaction : Prop :=
  ∀ (s : State) (a : Answer) (b2 b1 b0 : Byte) (rest : List Answer), s.pc = ⟨.xfer, .sel⟩ → s.op = .readId → s.pending = .ok →
    a.isErr = false → s.answers = a :: .data [b2, b1, b0] :: rest →
    let v := b2.toNat * 65536 + b1.toNat * 256 + b0.toNat
    let evs := rxnTrace [0x9F] [b2, b1, b0]
    (v ≠ 0 → iterate .rdid 4 s = .next { s with trace := s.trace ++ evs, dev := s.dev.play s.cfg evs, answers := rest,
                                                selected := false, resp := [b2, b1, b0], id := BitVec.ofNat 24 v,
                                                pc := ⟨.fin, .dash⟩ }) ∧
    (v = 0 → ∃ t, iterate .rdid 4 s = .next t ∧ t.pending = .noResponse ∧ t.pc = ⟨.fin, .dash⟩ ∧ t.trace = s.trace ++ evs ∧
      t.dev = s.dev.play s.cfg evs ∧ t.selected = false)

/-- `READ` and `FREAD`, whole (`40_wire_instructions.md` R96, R97, `43_facade_ops.md` R128, R129): one transaction, all `LEN` received bytes go
to `DST[0 .. LEN)` and the rest of the buffer is kept. -/
def Obligations.ReadingInstructionIsOneTransaction : Prop :=
  ∀ (s : State) (x : Addr) (dummy : Byte) (i : Instr) (a : Answer) (bytes : List Byte) (rest : List Answer),
    i ∈ [Instr.read x, .fread x dummy] → s.pc = ⟨.xfer, .sel⟩ → s.op ∈ [Op.read, .fastRead] → s.pending = .ok →
    a.isErr = false → s.answers = a :: .data bytes :: rest → bytes.length = s.len →
    iterate i 4 s = .next { s with trace := s.trace ++ rxnTrace (frameBytes i) bytes,
                                   dev := s.dev.play s.cfg (rxnTrace (frameBytes i) bytes), answers := rest, selected := false,
                                   resp := bytes, dst := bytes ++ s.dst.drop s.len, pc := ⟨.fin, .dash⟩ }

/-! The delay and the end. -/

/-- `60_exceptions.md` R155: stage `DLY` makes one Delay call with the operation's own constant; `reset` then ends, the others run the
disable step. -/
def Obligations.DelayNamesItsParameter : Prop :=
  ∀ s : State, s.pc.stage = .dly →
    let waited (d : DelayParam) : State := { s with trace := s.trace ++ [.dly d], dev := s.dev.onEvent s.cfg (.dly d) }
    (s.op = .reset → exec .opReset s = .next { waited .tRst with pending := .ok, pc := ⟨.fin, .dash⟩ }) ∧
    (s.op = .eraseSector → exec .opEraseSector s = .next { waited .tSe with pc := ⟨.dis, .sel⟩ }) ∧
    (s.op = .eraseChip → exec .opEraseChip s = .next { waited .tCe with pc := ⟨.dis, .sel⟩ }) ∧
    (s.op = .write → exec .opWrite s = .next { waited .tPp with pc := ⟨.dis, .sel⟩ })

/-- `10_state.md` R28: the step `(FIN,-)` writes `RESULT`, sets `DONE`, clears `BUSY` and goes to `(IDLE,-)`, all at once and nothing else, for
every operation. -/
def Obligations.FinishWritesTheResult : Prop :=
  ∀ s : State, s.pc.stage = .fin →
    exec s.op.toInstr s = .next { s with result := s.pending, done := true, busy := false, pc := ⟨.idle, .dash⟩ }

/-! Whole operations, from acceptance to return. -/

/-- `init`, whole (`43_facade_ops.md` R125): `PINMAP` and `BOUND` are set, no Transport Port call is made, the result is `Ok`. -/
def Obligations.InitBindsTheSession : Prop :=
  ∀ s : State, s.pc = ⟨.idle, .dash⟩ → s.busy = false → s.bound = false →
    iterate .opInit 3 s = .next { s.afterOp .init .ok [] 0 with pinmap := s.pinIn, bound := true, selected := s.selected }

/-- `reset`, whole (`43_facade_ops.md` R126): the two-byte frame in one transaction, then the recovery delay; no sequencer register but the
status flags, `OP` and the position changes (R172). -/
def Obligations.ResetSendsOneFrameAndWaits : Prop :=
  ∀ s : State, s.ready → s.txAnswer = .ok →
    iterate .opReset 7 s = .next (s.afterOp .reset .ok (txnTrace [0x66, 0x99] ++ [.dly .tRst]) 1)

/-- `read_id`, whole (`43_facade_ops.md` R127): any response that is not all zero is `Ok`, with the bytes combined big-endian. -/
def Obligations.ReadIdReturnsTheIdentifier : Prop :=
  ∀ (s : State) (a : Answer) (b2 b1 b0 : Byte) (rest : List Answer), s.ready → a.isErr = false →
    s.answers = a :: .data [b2, b1, b0] :: rest → b2.toNat * 65536 + b1.toNat * 256 + b0.toNat ≠ 0 →
    iterate .opReadId 7 s = .next { s.afterOp .readId .ok (rxnTrace [0x9F] [b2, b1, b0]) 2 with
      resp := [b2, b1, b0], id := BitVec.ofNat 24 (b2.toNat * 65536 + b1.toNat * 256 + b0.toNat) }

/-- `read_id` without a device (`43_facade_ops.md` R127, `20_memory.md` R63, the absent device of log 16): the all-zero response is `NoResponse`, after the complete
transaction. -/
def Obligations.ReadIdWithoutDeviceIsNoResponse : Prop :=
  ∀ s : State, s.ready → s.answers = [] → s.dev.kind = .absent →
    ∃ t, iterate .opReadId 7 s = .next t ∧ t.result = .noResponse ∧ t.done = true ∧ t.busy = false ∧ t.pc = ⟨.idle, .dash⟩ ∧
      t.trace = s.trace ++ rxnTrace [0x9F] [0x00, 0x00, 0x00] ∧ t.selected = false

/-- `read` and `fast_read`, whole (`43_facade_ops.md` R128, R129): one transaction whatever the length, zero included, and all received bytes
in `DST`. That `BASE` keeps its value after the return, where `10_state.md` R24 calls it unspecified, is the model's choice (log 18). -/
def Obligations.ReadsFillTheDestination : Prop :=
  ∀ (s : State) (a : Answer) (bytes : List Byte) (rest : List Answer), s.ready → a.isErr = false →
    s.answers = a :: .data bytes :: rest → bytes.length = s.len → s.len ≤ s.dst.length →
    s.start + s.len ≤ s.cfg.totalBytes →
    (iterate .opRead 7 s = .next { s.afterOp .read .ok (rxnTrace (0x03 :: addrBytes s.start) bytes) 2 with
      base := s.start, resp := bytes, dst := bytes ++ s.dst.drop s.len }) ∧
    (iterate .opFastRead 7 s = .next { s.afterOp .fastRead .ok (rxnTrace (0x0B :: (addrBytes s.start ++ [s.cfg.dummy])) bytes) 2 with
      base := s.start, resp := bytes, dst := bytes ++ s.dst.drop s.len })

/-- `erase_sector`, whole (`43_facade_ops.md` R130): one gated `SE` at `SECT * 4096`. That `BASE` keeps its
value after the return, where `10_state.md` R24 calls it unspecified, is the model's choice (log 18). -/
def Obligations.EraseSectorRunsTheGate : Prop :=
  ∀ s : State, s.ready → s.cfg.wf → s.sect < s.cfg.totalSectors → (∀ a ∈ s.answers.take 3, a.isErr = false) →
    iterate .opEraseSector 13 s =
      .next { s.afterOp .eraseSector .ok (gateTrace (0x20 :: addrBytes (s.sect * 4096)) .tSe) 3 with
        base := s.sect * 4096 }

/-- `erase_chip`, whole (`43_facade_ops.md` R131): one gated `CE`, with no range check. -/
def Obligations.EraseChipRunsTheGate : Prop :=
  ∀ s : State, s.ready → (∀ a ∈ s.answers.take 3, a.isErr = false) →
    iterate .opEraseChip 13 s = .next (s.afterOp .eraseChip .ok (gateTrace [0xC7] .tCe) 3)

/-- `write`, whole, for every length (`42_page_write.md` R110 to R119): an in-range request whose calls all answer `ok` ends `Ok` with exactly
the gated chunks of the closed form, in order; a zero-length one makes no call. What `BASE`, `CUR`, `END`, `REM` and `CHUNK` hold after the
return, where `10_state.md` R24 calls them unspecified, is the model's choice (log 18). -/
def Obligations.WriteSendsItsChunks : Prop :=
  ∀ s : State, s.ready → s.cfg.wf → s.start + s.len ≤ s.cfg.totalBytes → s.len ≤ s.src.length →
    let n := chunkCount s.start s.len
    (∀ a ∈ s.answers.take (3 * n), a.isErr = false) →
    iterate .opWrite (10 * n + 3) s =
      .next { s.afterOp .write .ok (chunksTrace s.src s.start s.len n) (3 * n) with
        base := s.start, cur := s.start + s.len, endAddr := s.start + s.len,
        rem := if n = 0 then 256 - s.start % 256 else 256,
        chunk := if n = 0 then s.chunk else chunkLen s.start s.len (n - 1),
        selected := if n = 0 then s.selected else false }

/-- A `write` whose `m`-th Transmit (from 0) is the first to fail (`42_page_write.md` R116, R122, `41_write_gate.md` R107), with either
value of `DESELECT_ON_FAIL` (`40_wire_instructions.md` R90): it stops there, with the translated failure, after the earlier chunks whole
and the failing chunk's prefix. No delay follows a failed mutation, no disable step a failed enable or mutation. `CUR` stays at the failing
chunk; that it can be read after the return, where `10_state.md` R24 calls it unspecified, is the model's choice (log 18). -/
def Obligations.WriteStopsAtItsFirstFailure : Prop :=
  ∀ (s : State) (pre : List Answer) (k : ErrKind) (rest : List Answer), s.ready → s.cfg.wf →
    s.start + s.len ≤ s.cfg.totalBytes → s.len ≤ s.src.length →
    s.answers = pre ++ .err k :: rest → (∀ a ∈ pre, a.isErr = false) → pre.length < 3 * chunkCount s.start s.len →
    let j := pre.length / 3
    let last := gateFailTrace (chunkFrame s.src s.start s.len j) .tPp k s.cfg.deselectOnFail (pre.length % 3)
    let evs := chunksTrace s.src s.start s.len j ++ last
    ∃ t, iterate .opWrite (10 * j + last.length + 3) s = .next t ∧ t.result = translate k ∧ t.done = true ∧ t.busy = false ∧
      t.pc = ⟨.idle, .dash⟩ ∧ t.trace = s.trace ++ evs ∧ t.dev = s.dev.play s.cfg evs ∧ t.answers = rest ∧
      t.cur = chunkAddr s.start j ∧ t.selected = !s.cfg.deselectOnFail

/-- An erase whose `m`-th Transmit (from 0) is the first to fail (`41_write_gate.md` R107, `40_wire_instructions.md` R90): as for a write, with
one gate, and with either value of `DESELECT_ON_FAIL`. -/
def Obligations.EraseStopsAtItsFirstFailure : Prop :=
  ∀ (s : State) (pre : List Answer) (k : ErrKind) (rest : List Answer), s.ready → s.cfg.wf →
    s.answers = pre ++ .err k :: rest → (∀ a ∈ pre, a.isErr = false) → pre.length < 3 →
    let fails (i : Instr) (evs : List Event) : Prop :=
      ∃ t, iterate i (evs.length + 3) s = .next t ∧ t.result = translate k ∧ t.done = true ∧ t.busy = false ∧
        t.pc = ⟨.idle, .dash⟩ ∧ t.trace = s.trace ++ evs ∧ t.dev = s.dev.play s.cfg evs ∧ t.answers = rest ∧
        t.selected = !s.cfg.deselectOnFail
    (s.sect < s.cfg.totalSectors →
      fails .opEraseSector (gateFailTrace (0x20 :: addrBytes (s.sect * 4096)) .tSe k s.cfg.deselectOnFail pre.length)) ∧
    fails .opEraseChip (gateFailTrace [0xC7] .tCe k s.cfg.deselectOnFail pre.length)

/-! The splitter's closed form. -/

/-- `42_page_write.md` R120: the chunks' lengths sum to `LEN`, the first begins at `BASE`, each next one where the one before ends, and
none is empty, so the addresses are strictly increasing. -/
def Obligations.ChunksTileTheRequest : Prop :=
  ∀ base len : Nat, 0 < len →
    ((List.range (chunkCount base len)).map (chunkLen base len)).sum = len ∧ chunkAddr base 0 = base ∧
    (∀ j, j + 1 < chunkCount base len → chunkAddr base (j + 1) = chunkAddr base j + chunkLen base len j) ∧
    ∀ j, j < chunkCount base len → 1 ≤ chunkLen base len j

/-- `42_page_write.md` R121: no chunk leaves its page, and a request inside one page is one chunk. -/
def Obligations.ChunksStayInTheirPage : Prop :=
  (∀ base len j : Nat, j < chunkCount base len →
    chunkAddr base j % 256 + chunkLen base len j ≤ 256 ∧
    chunkAddr base j + chunkLen base len j ≤ 256 * (chunkAddr base j / 256 + 1)) ∧
  ∀ base len : Nat, 0 < len → base % 256 + len ≤ 256 → chunkCount base len = 1

/-- `42_page_write.md` R122: the trace of `N` chunks has `10 * N` events, `3 * N` each of `SEL`, `DESEL` and `TX`, `N` delays and no `RX`, and
asks for `N * T_PP_MS` milliseconds. -/
def Obligations.WriteTraceHasItsShape : Prop :=
  ∀ (src : List Byte) (base len n : Nat),
    let evs := chunksTrace src base len n
    evs.length = 10 * n ∧ evs.count .sel = 3 * n ∧ evs.count .desel = 3 * n ∧ evs.count (.dly .tPp) = n ∧
    (∀ m a, Event.rx m a ∉ evs) ∧
    (evs.filter (fun e => match e with | .tx _ _ => true | _ => false)).length = 3 * n ∧
    delayTotal evs = n * Config.delayMs .tPp

/-! Invariants. -/

/-- The invariant of the machine holds right after reset. -/
def Obligations.InvariantHoldsAtReset : Prop := Inv State.reset ∧ GateInv State.reset

/-- The invariant of the machine is kept by every step: the position is a legal one, `BUSY` says that an operation runs, `SELECTED` mirrors
the window, the registers of `OPW` bits keep their width, the working registers stay in range (`10_state.md` R22 to R30), the array keeps
its canonical form. -/
def Obligations.EveryStepKeepsTheInvariant : Prop := ∀ s t : State, Inv s → step s = .next t → Inv t

/-- Under the invariant no step faults, and a step that is refused is refused because the host has broken a duty: a command that is not
accepted (`60_exceptions.md` R161), an access with `BUSY = 1` (`70_reset_and_hazards.md` R187), or a buffer that is too short
(`20_memory.md` R41). So the sequencer always has a step, or the host has broken a duty. -/
def Obligations.NoStepFaults : Prop :=
  (∀ (s : State) (f : Fault), Inv s → step s ≠ .fault f) ∧
  ∀ (s : State) (r : Refusal), Inv s → step s = .refused r →
    r ∈ [Refusal.commandWhileBusy, .notInitialised, .secondInit, .hostAccessWhileBusy, .srcTooShort, .dstTooShort]

/-- `41_write_gate.md` R105, `70_reset_and_hazards.md` R181: in every trace, a mutating frame is transmitted only in the window right after a
complete and successful `WREN` transaction; every step keeps this. -/
def Obligations.EveryMutationIsEnabledFirst : Prop := ∀ s t : State, Inv s → GateInv s → step s = .next t → GateInv t

/-- `30_encoding.md` R79, `40_wire_instructions.md` R98, R99: under the invariant every frame the sequencer sends decodes to a well-formed
instruction: no invalid opcode, no `PP` across a page, no `SE` off a sector boundary. The address of a `PP` or an `SE` exists, and every byte
that a `READ` or an `FREAD` asks for does (a read of no bytes may begin at the end of the array, D28). -/
def Obligations.EverySentFrameIsWellFormed : Prop :=
  ∀ (s : State) (f : List Byte), Inv s → s.frame = some f →
    (∃ i, s.instrAt = some i ∧ i.wf = true ∧ i.fits s.cfg = true ∧ frameBytes i = f) ∧
    (s.pc.stage = .xfer → s.op ∈ [Op.read, .fastRead] → s.base + s.len ≤ s.cfg.totalBytes)

/-- `10_state.md` R21: the session is set once: no step of a bound machine clears `BOUND` or changes `PINMAP`. -/
def Obligations.SessionIsSetOnce : Prop :=
  (∀ s t : State, Inv s → step s = .next t → s.bound = true → t.bound = true ∧ t.pinmap = s.pinmap) ∧
  ∀ (s t : State) (i : Instr), exec i s = .next t → i ≠ .opInit → t.bound = s.bound ∧ t.pinmap = s.pinmap

/-! Frames. -/

/-- The frame of every instruction (`10_state.md` R34): the configuration, the operand registers, `CMD`, `SRC` and the host's port are never
written by one; every other register only by the operation and at the position the rules name: `BOUND`, `PINMAP` by `init`, `OP` at
acceptance, `BUSY`, `DONE` at acceptance and end, `RESULT` at the end, `ID` by `read_id`, `DST` by the reads, `BASE` in `CHK`, the
splitter's registers by `write`, `SELECTED` inside a transaction. -/
def Obligations.InstructionsKeepOtherRegisters : Prop :=
  ∀ (i : Instr) (s t : State), exec i s = .next t →
    (t.cfg = s.cfg ∧ t.page = s.page ∧ t.offs = s.offs ∧ t.len = s.len ∧ t.sect = s.sect ∧ t.cmd = s.cmd ∧ t.pinIn = s.pinIn ∧
      t.src = s.src ∧ t.port = s.port) ∧
    (i ≠ .opInit ∨ s.pc.stage ≠ .chk → t.bound = s.bound ∧ t.pinmap = s.pinmap) ∧
    (s.pc.stage ≠ .idle → t.op = s.op) ∧
    (s.pc.stage ∉ [Stage.idle, .fin] → t.busy = s.busy ∧ t.done = s.done) ∧
    (s.pc.stage ≠ .fin → t.result = s.result) ∧
    (s.op ≠ .readId ∨ s.pc.stage = .idle → t.id = s.id) ∧
    (s.op ∉ [Op.read, .fastRead] ∨ s.pc.stage = .idle → t.dst = s.dst) ∧
    (s.pc.stage ≠ .chk → t.base = s.base ∧ t.endAddr = s.endAddr) ∧
    (s.op ≠ .write ∨ s.pc.stage ∉ [Stage.chk, .dis] → t.cur = s.cur ∧ t.rem = s.rem ∧ t.chunk = s.chunk ∧ t.endAddr = s.endAddr) ∧
    (s.pc.stage.hasTxn = false → t.selected = s.selected ∧ t.answers = s.answers ∧ t.resp = s.resp)

/-- The flash frame of every instruction: a byte reads as before unless the step's one event completes a mutating frame whose target
range (the chunk, the sector, the array), computed by the device's own functions, holds its address. That a device keeps the bytes outside
that range is the model's device: log 16 (PRESUMED) for the stubs, log 17 and 25 for the device of the source alone. That a complete reset
frame keeps the array of that device is the model's choice (log 35). -/
def Obligations.InstructionsKeepOtherFlashBytes : Prop :=
  ∀ (i : Instr) (s t : State), exec i s = .next t →
    ∃ evs : List Event, evs.length ≤ 1 ∧ t.trace = s.trace ++ evs ∧
      ∀ a : Nat, (∀ e ∈ evs, s.dev.storesTo s.cfg e a = false) → t.dev.flash.read a = s.dev.flash.read a

/-- `00_scope.md` R11, `40_wire_instructions.md` R101: what the sequencer does never depends on the device, but through the bytes of a
Receive: with another device it takes the same step, and the states differ in the device and the received bytes only. -/
def Obligations.SequencerSeesTheDeviceOnlyThroughBytes : Prop :=
  ∀ (s t : State) (d : Device), step s = .next t →
    ∃ t', step { s with dev := d } = .next t' ∧ { t' with dev := t.dev, trace := t.trace, resp := t.resp } = t ∧
      (s.pc.sub ≠ .rx → t'.trace = t.trace ∧ t'.resp = t.resp)

/-! The device. These rest on the reference stub (`20_memory.md` R60 to R65), which the spec takes from general knowledge. -/

/-- `20_memory.md` R62: with the latch clear, a complete frame of a stub (the stubs: log 16) changes no byte of the array. -/
def Obligations.LatchGatesEveryMutation : Prop :=
  ∀ (p : Params) (d : Device), d.wel = false → d.kind ≠ .general → (d.onEvent p .desel).flash = d.flash

/-- `20_memory.md` R62, on the stub (log 16): a page-program inside one page, with the latch set, ANDs the payload into its bytes, keeps every other byte and
clears the latch. -/
def Obligations.ProgramAndsThePayload : Prop :=
  ∀ (p : Params) (d : Device) (a2 a1 a0 : Byte) (data : List Byte), d.kind = .stub → d.wel = true →
    d.win = 0x02 :: a2 :: a1 :: a0 :: data → data ≠ [] →
    let a := a2.toNat * 65536 + a1.toNat * 256 + a0.toNat
    a % 256 + data.length ≤ 256 → a + data.length ≤ p.totalBytes →
    (∀ (i : Nat) (hi : i < data.length), (d.onEvent p .desel).flash.read (a + i) = d.flash.read (a + i) &&& data[i]) ∧
    (∀ x, x < a ∨ a + data.length ≤ x → (d.onEvent p .desel).flash.read x = d.flash.read x) ∧
    (d.onEvent p .desel).wel = false

/-- `20_memory.md` R62, on the stub (log 16): the erases, with the latch set: every byte of the sector, or of the array, becomes `0xFF`, every other is kept;
a mutating frame clears the latch. -/
def Obligations.ErasesSetTheirBytes : Prop :=
  ∀ (p : Params) (d : Device), d.kind = .stub → d.wel = true →
    (∀ a2 a1 a0 : Byte, d.win = [0x20, a2, a1, a0] →
      let a := a2.toNat * 65536 + a1.toNat * 256 + a0.toNat
      ∀ x, (d.onEvent p .desel).flash.read x = if x / 4096 = a / 4096 ∧ x < p.totalBytes then 0xFF else d.flash.read x) ∧
    (d.win = [0xC7] → ∀ x, (d.onEvent p .desel).flash.read x = if x < p.totalBytes then 0xFF else d.flash.read x) ∧
    (frameMutates d.win = true → winFrame d.win ≠ .nothing → (d.onEvent p .desel).wel = false)

/-- `20_memory.md` R48, `60_exceptions.md` R149, on the device of the source alone (log 17): a `PP` whose Transmit failed leaves its chunk
indeterminate (free values, one for each address), every other byte as it was, and the latch indeterminate. In a window that may
continue an unfinished mutating frame (`70_reset_and_hazards.md` R188) the whole array is indeterminate in place of the chunk, which is the
model's choice (log 25). That the busy condition is a free value too, and that a device which was busy stays busy, is the model's
choice (log 17): R149 names the array and the latch only. -/
def Obligations.FailedProgramLeavesItsRangeLatchAndBusyUnknown : Prop :=
  ∀ (p : Params) (d : Device) (k : ErrKind) (a2 a1 a0 : Byte) (data : List Byte), d.kind = .general → d.win = [] → data ≠ [] →
    let a := a2.toNat * 65536 + a1.toNat * 256 + a0.toNat
    let d' := d.onEvent p (.tx (0x02 :: a2 :: a1 :: a0 :: data) (.err k))
    (d.stale.any frameMutates = false → a % 256 + data.length ≤ 256 → a + data.length ≤ p.totalBytes →
      ∀ x, d'.flash.read x = if a ≤ x ∧ x < a + data.length then Config.freeFlash d.draws x else d.flash.read x) ∧
    (d.stale.any frameMutates = true →
      ∀ x, d'.flash.read x = if x < p.totalBytes then Config.freeFlash d.draws x else d.flash.read x) ∧
    d'.wel = Config.freeWel d.draws ∧ d'.busy = (d.busy || Config.freeBusy d.draws)

/-- `41_write_gate.md` R108, with the stub (log 16): a chip erase whose mutating Transmit fails after the enable step leaves the write-enable
latch set and the array as it was. -/
def Obligations.LatchMayBeLeftSet : Prop :=
  ∀ (s : State) (a : Answer) (k : ErrKind) (rest : List Answer), s.ready → s.cfg.deselectOnFail = true → s.dev.kind = .stub →
    a.isErr = false → s.answers = a :: .err k :: rest →
    ∃ t, iterate .opEraseChip 9 s = .next t ∧ t.pc = ⟨.idle, .dash⟩ ∧ t.result = translate k ∧ t.dev.wel = true ∧
      t.dev.flash = s.dev.flash

/-- `20_memory.md` R56, with the stub (log 16): writing bytes into an erased range and reading the range back returns the bytes. -/
def Obligations.WriteThenReadReturnsTheBytes : Prop :=
  ∀ s : State, s.ready → s.cfg.wf → s.answers = [] → s.dev.kind = .stub → s.start + s.len ≤ s.cfg.totalBytes →
    s.len ≤ s.src.length → s.len ≤ s.dst.length →
    (∀ x, s.start ≤ x → x < s.start + s.len → s.dev.flash.read x = 0xFF) →
    ∃ j k t u, iterate .opWrite j s = .next t ∧ t.pc = ⟨.idle, .dash⟩ ∧ t.result = .ok ∧
      iterate .opRead k t = .next u ∧ u.pc = ⟨.idle, .dash⟩ ∧ u.result = .ok ∧ u.dst.take s.len = s.src.take s.len

/-! Reset and reads of the host. -/

/-- `70_reset_and_hazards.md` R170, R171: what power-on reset leaves, of the machine as it starts and of the sequencer alone in any
state: it touches neither the device nor the configuration. The values R35 calls unspecified are the model's choice (log 5) and not
stated. -/
def Obligations.PowerOnResetIsIdleAndUnbound : Prop :=
  (State.reset.pc = ⟨.idle, .dash⟩ ∧ State.reset.busy = false ∧ State.reset.done = false ∧ State.reset.result = .ok ∧
    State.reset.bound = false ∧ State.reset.selected = false ∧ State.reset.trace = []) ∧
  ∀ s : State, s.powerOn.dev = s.dev ∧ s.powerOn.cfg = s.cfg ∧ s.powerOn.pc = ⟨.idle, .dash⟩ ∧ s.powerOn.busy = false ∧
    s.powerOn.done = false ∧ s.powerOn.result = .ok ∧ s.powerOn.bound = false ∧ s.powerOn.selected = false ∧ s.powerOn.trace = []

/-- `10_state.md` R28: `STATUS` holds `BUSY` in bit 0, `DONE` in bit 1, `RESULT` in bits 3:2 with the codes of `60_exceptions.md` R140; the host
reads it, the operand registers, `BOUND`, `ID`, `SRC` and `DST`, and not `CMD`, `OP`, `PINMAP`, the working registers, `STAGE`, `SUB` or
`SELECTED` (R30, R34). That nothing stands above a register's own bits is the model's choice (log 36), and so is what a
read of `DST` gives before an operation has ended with `Ok` (log 37). -/
def Obligations.HostReadsTheStatus : Prop :=
  ∀ s : State, s.status.toNat = (if s.busy then 1 else 0) + 2 * (if s.done then 1 else 0) + 4 * s.result.code ∧
    (Result.code .ok = 0 ∧ Result.code .noResponse = 1 ∧ Result.code .transportError = 2 ∧ Result.code .outOfRange = 3) ∧
    s.hostRead .status = some (.number s.status.toNat) ∧ s.hostRead .id = some (.number s.id.toNat) ∧
    s.hostRead .page = some (.number s.page) ∧ s.hostRead .offs = some (.number s.offs) ∧ s.hostRead .len = some (.number s.len) ∧
    s.hostRead .sect = some (.number s.sect) ∧ s.hostRead .bound = some (.number (if s.bound then 1 else 0)) ∧
    s.hostRead .src = some (.bytes s.src) ∧ s.hostRead .dst = some (.bytes s.dst) ∧
    (∀ r ∈ [HostReg.cmd, .op, .pinmap, .working, .stage, .sub, .selected], s.hostRead r = none)
end

