-- ==== Sys2Proof/Laws/Memory.lean ====
section
/-! SUPPORT. The flash array: a read after a write, and that every operation keeps the canonical form. -/

namespace Sys2Proof.Machine

/-! Cells. -/

@[simp] theorem cellAt_nil (a : Nat) : cellAt [] a = none := rfl

theorem cellAt_eq_none {cs : List Host.Cell} {a : Nat} (h : ∀ c ∈ cs, c.1 ≠ a) : cellAt cs a = none := by
  induction cs with
  | nil => rfl
  | cons c cs ih =>
    have hc := h c (by simp)
    simp only [cellAt, if_neg hc]
    exact ih (fun d hd => h d (by simp [hd]))

theorem cellAt_mem {cs : List Host.Cell} {a : Nat} {b : Byte} (h : cellAt cs a = some b) : (a, b) ∈ cs := by
  induction cs with
  | nil => simp at h
  | cons c cs ih =>
    rcases c with ⟨x, y⟩
    simp only [cellAt] at h
    split at h
    · simp_all
    · simp [ih h]

theorem cellAt_putCell (a x : Nat) (b : Byte) (cs : List Host.Cell) :
    cellAt (putCell a b cs) x = if a = x then some b else cellAt cs x := by
  induction cs with
  | nil => simp [putCell, cellAt]
  | cons c cs ih =>
    rcases c with ⟨y, z⟩
    simp only [putCell]
    split
    · simp [cellAt]
    · split
      · next h => subst h; simp only [cellAt]; split <;> simp_all
      · simp only [cellAt, ih]; split <;> split <;> simp_all

theorem cellAt_cellsOutside (lo hi x : Nat) (cs : List Host.Cell) :
    cellAt (cellsOutside lo hi cs) x = if lo ≤ x ∧ x < hi then none else cellAt cs x := by
  induction cs with
  | nil => simp [cellsOutside]
  | cons c cs ih =>
    rcases c with ⟨y, z⟩
    simp only [cellsOutside, List.filter_cons] at ih ⊢
    by_cases hy : y < lo ∨ hi ≤ y
    · simp only [hy, decide_true, if_true, cellAt, ih]
      split
      · next h => subst h; rw [if_neg (by omega)]
      · rfl
    · simp only [hy, decide_false, Bool.false_eq_true, if_false, cellAt, ih]
      split
      · rfl
      · next h => rw [if_neg (by omega)]

theorem mem_cellsOutside {lo hi : Nat} {cs : List Host.Cell} {c : Host.Cell} :
    c ∈ cellsOutside lo hi cs ↔ c ∈ cs ∧ (c.1 < lo ∨ hi ≤ c.1) := by
  simp [cellsOutside]

theorem mem_putCell {a : Nat} {b : Byte} {cs : List Host.Cell} {c : Host.Cell} (h : c ∈ putCell a b cs) : c = (a, b) ∨ c ∈ cs := by
  induction cs with
  | nil => simpa [putCell] using h
  | cons d cs ih =>
    simp only [putCell] at h
    split at h
    · simpa using h
    · split at h
      · simp only [List.mem_cons] at h ⊢; tauto
      · simp only [List.mem_cons] at h ⊢
        rcases h with h | h
        · tauto
        · rcases ih h with h | h <;> tauto

theorem putCell_rising {a : Nat} {b : Byte} {cs : List Host.Cell} (h : cs.Pairwise (fun c d => c.1 < d.1)) :
    (putCell a b cs).Pairwise (fun c d => c.1 < d.1) := by
  induction cs with
  | nil => simp [putCell]
  | cons c cs ih =>
    rw [List.pairwise_cons] at h
    simp only [putCell]
    split
    · next hlt =>
      refine List.pairwise_cons.2 ⟨?_, List.pairwise_cons.2 h⟩
      intro d hd
      rcases List.mem_cons.1 hd with rfl | hd
      · exact hlt
      · exact Nat.lt_trans hlt (h.1 d hd)
    · split
      · next heq => exact List.pairwise_cons.2 ⟨fun d hd => heq ▸ h.1 d hd, h.2⟩
      · next hnl hne =>
        refine List.pairwise_cons.2 ⟨?_, ih h.2⟩
        intro d hd
        rcases mem_putCell hd with rfl | hd
        · show c.1 < a; omega
        · exact h.1 d hd

/-! Indeterminate ranges. -/

theorem mem_fogPiece {lo hi draw : Nat} {g : Fog} : g ∈ fogPiece lo hi draw ↔ g = ⟨lo, hi, draw⟩ ∧ lo < hi := by
  unfold fogPiece; split <;> simp_all

theorem mem_fogOutside {lo hi : Nat} {fs : List Fog} {g : Fog} (h : g ∈ fogOutside lo hi fs) :
    ∃ f ∈ fs, f.lo ≤ g.lo ∧ g.hi ≤ f.hi ∧ g.draw = f.draw ∧ g.lo < g.hi ∧ (g.hi ≤ lo ∨ hi ≤ g.lo) := by
  simp only [fogOutside, List.mem_flatMap, List.mem_append, mem_fogPiece] at h
  obtain ⟨f, hf, ⟨rfl, hlt⟩ | ⟨rfl, hlt⟩⟩ := h
  · exact ⟨f, hf, Nat.le_refl _, Nat.min_le_left _ _, rfl, hlt, Or.inl (Nat.min_le_right _ _)⟩
  · exact ⟨f, hf, Nat.le_max_left _ _, Nat.le_refl _, rfl, hlt, Or.inr (Nat.le_max_right _ _)⟩

theorem fogOutside_apart {lo hi : Nat} (hle : lo ≤ hi) {fs : List Fog} (h : fs.Pairwise (fun g h => g.hi ≤ h.lo ∨ h.hi ≤ g.lo)) :
    (fogOutside lo hi fs).Pairwise (fun g h => g.hi ≤ h.lo ∨ h.hi ≤ g.lo) := by
  induction fs with
  | nil => simp [fogOutside]
  | cons f fs ih =>
    rw [List.pairwise_cons] at h
    have hrest := ih h.2
    simp only [fogOutside, List.flatMap_cons] at hrest ⊢
    refine List.pairwise_append.2 ⟨?_, hrest, ?_⟩
    · unfold fogPiece
      split <;> split <;> simp; omega
    · intro g hg k hk
      obtain ⟨f', hf', h1, h2, -, -, -⟩ := mem_fogOutside (g := k) (by simpa [fogOutside] using hk)
      have hap := h.1 f' hf'
      simp only [List.mem_append, mem_fogPiece] at hg
      rcases hg with ⟨rfl, -⟩ | ⟨rfl, -⟩ <;> simp <;> omega

/-- Cutting a range leaves what any address outside it reads as when no cell lists it. -/
theorem find_fogOutside {lo hi x : Nat} (hle : lo ≤ hi) (fs : List Fog) (hx : x < lo ∨ hi ≤ x) :
    ((fogOutside lo hi fs).find? (fun g => decide (g.lo ≤ x ∧ x < g.hi))).map Fog.draw =
      (fs.find? (fun g => decide (g.lo ≤ x ∧ x < g.hi))).map Fog.draw := by
  induction fs with
  | nil => rfl
  | cons f fs ih =>
    have e : fogOutside lo hi (f :: fs) =
        fogPiece f.lo (min f.hi lo) f.draw ++ fogPiece (max f.lo hi) f.hi f.draw ++ fogOutside lo hi fs := rfl
    rw [e, List.find?_append, List.find?_append]
    by_cases hc : f.lo ≤ x ∧ x < f.hi
    · rw [List.find?_cons_of_pos (by simpa using hc)]
      unfold fogPiece
      rcases hx with hx | hx
      · rw [if_pos (by omega), List.find?_cons_of_pos (by simp; omega)]; rfl
      · have : ([⟨max f.lo hi, f.hi, f.draw⟩] : List Fog).find? (fun g => decide (g.lo ≤ x ∧ x < g.hi)) =
            some ⟨max f.lo hi, f.hi, f.draw⟩ := List.find?_cons_of_pos (by simp; omega)
        rw [if_pos (show max f.lo hi < f.hi by omega), this]
        split
        · rw [List.find?_cons_of_neg (by simp; omega)]; rfl
        · rfl
    · rw [List.find?_cons_of_neg (by simpa using hc), ← ih]
      have p1 : (fogPiece f.lo (min f.hi lo) f.draw).find? (fun g => decide (g.lo ≤ x ∧ x < g.hi)) = none := by
        unfold fogPiece; split
        · exact List.find?_cons_of_neg (by simp; omega)
        · rfl
      have p2 : (fogPiece (max f.lo hi) f.hi f.draw).find? (fun g => decide (g.lo ≤ x ∧ x < g.hi)) = none := by
        unfold fogPiece; split
        · exact List.find?_cons_of_neg (by simp; omega)
        · rfl
      rw [p1, p2]; rfl

theorem find_fogOutside_inside {lo hi x : Nat} (fs : List Fog) (hx : lo ≤ x ∧ x < hi) :
    (fogOutside lo hi fs).find? (fun g => decide (g.lo ≤ x ∧ x < g.hi)) = none := by
  rw [List.find?_eq_none]
  intro g hg
  obtain ⟨-, -, -, -, -, -, h⟩ := mem_fogOutside hg
  simp; omega

theorem unlisted_of_draw {m m' : Memory} {x : Nat}
    (h : (m.fog.find? (fun g => decide (g.lo ≤ x ∧ x < g.hi))).map Fog.draw =
      (m'.fog.find? (fun g => decide (g.lo ≤ x ∧ x < g.hi))).map Fog.draw) : m.unlisted x = m'.unlisted x := by
  unfold Memory.unlisted
  generalize m.fog.find? (fun g => decide (g.lo ≤ x ∧ x < g.hi)) = p at h
  generalize m'.fog.find? (fun g => decide (g.lo ≤ x ∧ x < g.hi)) = q at h
  cases p <;> cases q <;> simp_all

/-! Reads after the three operations. -/

/-- A read after a write of one byte. -/
theorem read_write (m : Memory) (a x : Nat) (b : Byte) : (m.write a b).read x = if a = x then b else m.read x := by
  have hu : x ≠ a → (m.write a b).unlisted x = m.unlisted x := fun hne =>
    unlisted_of_draw (find_fogOutside (by omega) m.fog (by omega))
  have hself : (m.write a b).unlisted a = erasedByte := by
    unfold Memory.unlisted Memory.write
    rw [find_fogOutside_inside m.fog (by omega)]
  unfold Memory.read
  by_cases hb : b = erasedByte
  · have hc : (m.write a b).cells = cellsOutside a (a + 1) m.cells := if_pos hb
    rw [hc, cellAt_cellsOutside]
    by_cases hx : a = x
    · subst hx; rw [if_pos (by omega), if_pos rfl, hself, hb]
    · rw [if_neg (by omega), if_neg hx, hu (fun h => hx h.symm)]
  · have hc : (m.write a b).cells = putCell a b m.cells := if_neg hb
    rw [hc, cellAt_putCell]
    by_cases hx : a = x
    · rw [if_pos hx, if_pos hx]
    · rw [if_neg hx, if_neg hx, hu (fun h => hx h.symm)]

/-- A read after an erase. -/
theorem read_eraseRange (m : Memory) {lo hi : Nat} (hle : lo ≤ hi) (x : Nat) :
    (m.eraseRange lo hi).read x = if lo ≤ x ∧ x < hi then erasedByte else m.read x := by
  unfold Memory.read
  rw [show (m.eraseRange lo hi).cells = cellsOutside lo hi m.cells from rfl, cellAt_cellsOutside]
  by_cases hx : lo ≤ x ∧ x < hi
  · rw [if_pos hx, if_pos hx]
    simp only [Memory.unlisted, Memory.eraseRange, find_fogOutside_inside m.fog hx]
  · rw [if_neg hx, if_neg hx, unlisted_of_draw (m' := m) (find_fogOutside hle m.fog (by omega))]

/-- A read after a range became indeterminate. -/
theorem read_makeUnknown (m : Memory) {lo hi : Nat} (hle : lo ≤ hi) (draw x : Nat) :
    (m.makeUnknown lo hi draw).read x = if lo ≤ x ∧ x < hi then Config.freeFlash draw x else m.read x := by
  unfold Memory.read
  rw [show (m.makeUnknown lo hi draw).cells = cellsOutside lo hi m.cells from rfl, cellAt_cellsOutside]
  by_cases hx : lo ≤ x ∧ x < hi
  · rw [if_pos hx, if_pos hx]
    have : lo < hi := by omega
    simp only [Memory.unlisted, Memory.makeUnknown, fogPiece, if_pos this, List.cons_append, List.nil_append]
    rw [List.find?_cons_of_pos (by simpa using hx)]
  · rw [if_neg hx, if_neg hx]
    have hp : (fogPiece lo hi draw).find? (fun g => decide (g.lo ≤ x ∧ x < g.hi)) = none := by
      unfold fogPiece; split
      · exact List.find?_cons_of_neg (by simpa using hx)
      · rfl
    have hu : (m.makeUnknown lo hi draw).unlisted x = m.unlisted x := unlisted_of_draw (by
      rw [← find_fogOutside hle m.fog (show x < lo ∨ hi ≤ x by omega)]
      show (List.find? _ (fogPiece lo hi draw ++ fogOutside lo hi m.fog)).map _ = _
      rw [List.find?_append, hp]; rfl)
    rw [hu]

/-! The canonical form. -/

theorem Memory.fresh_wf : Memory.fresh.wf := by decide

theorem cellsOutside_rising {lo hi : Nat} {cs : List Host.Cell} (h : cs.Pairwise (fun c d => c.1 < d.1)) :
    (cellsOutside lo hi cs).Pairwise (fun c d => c.1 < d.1) := h.filter _

theorem Memory.write_wf {m : Memory} (h : m.wf) (a : Nat) (b : Byte) : (m.write a b).wf := by
  obtain ⟨h1, h2, h3, h4, h5⟩ := h
  refine ⟨?_, ?_, ?_, fogOutside_apart (by omega) h4, ?_⟩
  · unfold Memory.write; simp only; split
    · exact cellsOutside_rising h1
    · exact putCell_rising h1
  · unfold Memory.write; simp only; split
    · intro c hc; exact h2 c (mem_cellsOutside.1 hc).1
    · next hb => intro c hc; rcases mem_putCell hc with rfl | hc; exacts [hb, h2 c hc]
  · intro g hg; obtain ⟨-, -, -, -, -, h, -⟩ := mem_fogOutside hg; exact h
  · intro c hc g hg
    obtain ⟨f, hf, e1, e2, -, -, e3⟩ := mem_fogOutside hg
    have key : ∀ c ∈ m.cells, c.1 < g.lo ∨ g.hi ≤ c.1 := fun c hc => by have := h5 c hc f hf; omega
    unfold Memory.write at hc; simp only at hc; split at hc
    · exact key c (mem_cellsOutside.1 hc).1
    · rcases mem_putCell hc with rfl | hc
      · show a < g.lo ∨ g.hi ≤ a; omega
      · exact key c hc

theorem Memory.eraseRange_wf {m : Memory} (h : m.wf) {lo hi : Nat} (hle : lo ≤ hi) : (m.eraseRange lo hi).wf := by
  obtain ⟨h1, h2, h3, h4, h5⟩ := h
  refine ⟨cellsOutside_rising h1, fun c hc => h2 c (mem_cellsOutside.1 hc).1, ?_, fogOutside_apart hle h4, ?_⟩
  · intro g hg; obtain ⟨-, -, -, -, -, h, -⟩ := mem_fogOutside hg; exact h
  · intro c hc g hg
    obtain ⟨f, hf, e1, e2, -, -, -⟩ := mem_fogOutside hg
    have := h5 c (mem_cellsOutside.1 hc).1 f hf
    omega

theorem Memory.makeUnknown_wf {m : Memory} (h : m.wf) {lo hi : Nat} (hle : lo ≤ hi) (draw : Nat) : (m.makeUnknown lo hi draw).wf := by
  obtain ⟨h1, h2, h3, h4, h5⟩ := Memory.eraseRange_wf h hle
  refine ⟨h1, h2, ?_, ?_, ?_⟩
  · intro g hg
    rcases List.mem_append.1 hg with hg | hg
    · obtain ⟨rfl, h⟩ := mem_fogPiece.1 hg; exact h
    · exact h3 g hg
  · refine List.pairwise_append.2 ⟨?_, h4, ?_⟩
    · unfold fogPiece; split <;> simp
    · intro g hg k hk
      obtain ⟨rfl, -⟩ := mem_fogPiece.1 hg
      obtain ⟨-, -, -, -, -, -, e⟩ := mem_fogOutside hk
      simp only; omega
  · intro c hc g hg
    rcases List.mem_append.1 hg with hg | hg
    · obtain ⟨rfl, -⟩ := mem_fogPiece.1 hg; exact (mem_cellsOutside.1 hc).2
    · exact h5 c hc g hg

end Sys2Proof.Machine
end

