-- ==== Sys2Proof/Laws/Device.lean ====
section
/-! SUPPORT. The device: what one event changes, the canonical form of the array, the addresses stored to, the length of a response. -/

namespace Sys2Proof.Machine

/-! Playing events. -/

@[simp] theorem Device.play_nil (p : Params) (d : Device) : d.play p [] = d := rfl

@[simp] theorem Device.play_cons (p : Params) (d : Device) (e : Event) (evs : List Event) :
    d.play p (e :: evs) = (d.onEvent p e).play p evs := rfl

theorem Device.play_append (p : Params) (d : Device) (xs ys : List Event) : d.play p (xs ++ ys) = (d.play p xs).play p ys := by
  simp [Device.play]

theorem Device.play_concat (p : Params) (d : Device) (xs : List Event) (e : Event) :
    d.play p (xs ++ [e]) = (d.play p xs).onEvent p e := by
  simp [Device.play]

theorem le_capHi (lo hi total : Nat) : lo ≤ capHi lo hi total := Nat.le_max_left _ _

theorem targetLo_le_targetHi (p : Params) {f : WinFrame} (h : f.mutates = true) : targetLo f ≤ targetHi p f := by
  cases f <;> simp_all [WinFrame.mutates, targetHi, targetLo, capHi]

/-! The pieces of an event. -/

theorem Params.hold_lt (p : Params) (v : Nat) : p.hold v < 2 ^ p.opw := Nat.mod_lt _ (Nat.two_pow_pos _)

@[simp] theorem Device.startWindow_kind (d : Device) : d.startWindow.kind = d.kind := rfl
@[simp] theorem Device.startWindow_flash (d : Device) : d.startWindow.flash = d.flash := rfl
@[simp] theorem Device.startWindow_wel (d : Device) : d.startWindow.wel = d.wel := rfl
@[simp] theorem Device.startWindow_busy (d : Device) : d.startWindow.busy = d.busy := rfl
@[simp] theorem Device.startWindow_win (d : Device) : d.startWindow.win = [] := rfl
@[simp] theorem Device.startWindow_rxpos (d : Device) : d.startWindow.rxpos = 0 := rfl
@[simp] theorem Device.startWindow_torn (d : Device) : d.startWindow.torn = false := rfl

/-- A stub is not touched by a Transmit that failed (`20_memory.md` R61). -/
theorem failTx_of_ne_general {d : Device} (h : d.kind ≠ .general) (p : Params) (bytes : List Byte) : d.failTx p bytes = d := by
  simp [Device.failTx, h]

/-- To a stub a window is the frame it holds. -/
theorem meant_of_ne_general {d : Device} (h : d.kind ≠ .general) (bytes : List Byte) : d.meant bytes = winFrame bytes := by
  simp [Device.meant, h]

/-- In a window that continues nothing, so it is to the `general` device. -/
theorem meant_of_clean {d : Device} (h : d.stale.any frameMutates = false) (bytes : List Byte) : d.meant bytes = winFrame bytes := by
  simp [Device.meant, h]

/-! Programming. -/

theorem progAddr_page (a i : Nat) : a / 256 * 256 ≤ progAddr a i ∧ progAddr a i < a / 256 * 256 + 256 := by
  unfold progAddr; omega

theorem progAddr_of_contained {a i n : Nat} (h : a % 256 + n ≤ 256) (hi : i < n) : progAddr a i = a + i := by
  unfold progAddr; omega

theorem programFrom_wf (k : DeviceKind) (total draw a : Nat) (ds : List Byte) :
    ∀ (i : Nat) {m : Memory}, m.wf → (programFrom k total draw a i ds m).wf := by
  induction ds with
  | nil => intro i m h; exact h
  | cons d ds ih =>
    intro i m h
    simp only [programFrom]
    refine ih (i + 1) ?_
    split
    · exact Memory.write_wf h _ _
    · exact h

/-- Programming stores to the payload's addresses only. -/
theorem read_programFrom_other (k : DeviceKind) (total draw a x : Nat) (ds : List Byte) :
    ∀ (i : Nat) (m : Memory), (∀ j < ds.length, progAddr a (i + j) < total → progAddr a (i + j) ≠ x) → (programFrom k total draw a i ds m).read x = m.read x := by
  induction ds with
  | nil => intro i m _; rfl
  | cons d ds ih =>
    intro i m h
    simp only [programFrom]
    rw [ih]
    · split
      · next ht => rw [read_write]; exact if_neg (h 0 (by simp) ht)
      · rfl
    · intro j hj
      have := h (j + 1) (by simpa using hj)
      rwa [Nat.add_assoc, Nat.add_comm 1 j]

theorem mutated_wf (k : DeviceKind) (p : Params) (draw : Nat) (f : WinFrame) {m : Memory} (h : m.wf) : (mutated k p draw f m).wf := by
  unfold mutated
  split
  · exact programFrom_wf _ _ _ _ _ _ h
  · exact Memory.eraseRange_wf h (le_capHi _ _ _)
  · exact Memory.eraseRange_wf h (Nat.zero_le _)
  · exact h

/-- A mutating frame stores inside its target range only. -/
theorem read_mutated_other (k : DeviceKind) (p : Params) (draw : Nat) (f : WinFrame) (m : Memory) (x : Nat) (hm : f.mutates = true)
    (h : ¬(targetLo f ≤ x ∧ x < targetHi p f)) : (mutated k p draw f m).read x = m.read x := by
  cases f <;> simp only [WinFrame.mutates, Bool.false_eq_true] at hm
  · next a d =>
    refine read_programFrom_other _ _ _ _ _ _ _ _ ?_
    intro j hj ht heq
    simp only [targetLo, targetHi, capHi, Nat.zero_add] at h heq ht
    have hp := progAddr_page a j
    by_cases hc : a % 256 + d.length ≤ 256
    · have e := progAddr_of_contained hc hj
      simp only [hc, if_true] at h; omega
    · simp only [hc, if_false] at h; omega
  · next a =>
    simp only [mutated]; rw [read_eraseRange _ (le_capHi _ _ _)]; exact if_neg h
  · simp only [mutated]; rw [read_eraseRange _ (Nat.zero_le _)]; exact if_neg h

/-! One event. -/

theorem indeterminate_wf {d : Device} (p : Params) (f : WinFrame) (h : d.flash.wf) : (d.indeterminate p f).flash.wf := by
  unfold Device.indeterminate
  split
  · next hm => exact Memory.makeUnknown_wf h (targetLo_le_targetHi p hm) _
  · (repeat' split) <;> exact h

theorem execute_wf {d : Device} (p : Params) (f : WinFrame) (h : d.flash.wf) : (d.execute p f).flash.wf := by
  unfold Device.execute
  split
  · split
    · exact mutated_wf _ _ _ _ h
    · exact h
  · split
    · exact h
    · exact h
    · split <;> exact h
    · exact h

theorem endWindow_wf {d : Device} (p : Params) (h : d.flash.wf) : (d.endWindow p).flash.wf := by
  unfold Device.endWindow
  simp only
  split
  · exact h
  · exact execute_wf (d := { d with win := [], torn := false, stale := [] }) p _ h
  · split
    · exact h
    · exact execute_wf (d := { d with win := [], torn := false, stale := [] }) p _ h
  · split
    · exact indeterminate_wf (d := { d with win := [], torn := false, stale := [] }) p _ h
    · split
      · exact h
      · exact execute_wf (d := { d with win := [], torn := false, stale := [] }) p _ h

theorem failTx_wf {d : Device} (p : Params) (bytes : List Byte) (h : d.flash.wf) : (d.failTx p bytes).flash.wf := by
  unfold Device.failTx
  split
  · exact indeterminate_wf (d := { d with win := d.win ++ bytes, torn := true }) p _ h
  · exact h

/-- Every event keeps the canonical form of the array. -/
theorem onEvent_wf {d : Device} (p : Params) (e : Event) (h : d.flash.wf) : (d.onEvent p e).flash.wf := by
  cases e with
  | sel => exact h
  | desel => exact endWindow_wf p h
  | tx bytes a =>
    cases a with
    | ok => exact h
    | err k =>
      exact failTx_wf p bytes h
  | rx n a => cases a <;> exact h
  | dly _ => exact h

theorem play_wf (p : Params) (evs : List Event) : ∀ {d : Device}, d.flash.wf → (d.play p evs).flash.wf := by
  induction evs with
  | nil => intro d h; exact h
  | cons e evs ih => intro d h; exact ih (onEvent_wf p e h)

/-- No event changes which device is attached. -/
@[simp] theorem onEvent_kind (p : Params) (d : Device) (e : Event) : (d.onEvent p e).kind = d.kind := by
  have hex : ∀ (d : Device) f, (d.execute p f).kind = d.kind := by
    intro d f; unfold Device.execute; (repeat' split) <;> rfl
  have hin : ∀ (d : Device) f, (d.indeterminate p f).kind = d.kind := by
    intro d f; unfold Device.indeterminate; (repeat' split) <;> rfl
  cases e with
  | sel => rfl
  | desel =>
    simp only [Device.onEvent, Device.endWindow]
    (repeat' split) <;> simp [hex, hin]
  | tx bytes a =>
    cases a <;> simp only [Device.onEvent]
    unfold Device.failTx
    split <;> simp [hin]
  | rx n a => cases a <;> rfl
  | dly _ => rfl

/-- The bytes driven during a Receive of `n` are `n`. -/
@[simp] theorem respond_length (p : Params) (d : Device) (n : Nat) : (d.respond p n).length = n := by
  unfold Device.respond
  split
  · simp
  · split
    · simp [freeBytes]
    · split
      · simp
      · simp [freeBytes, idBytes]; omega
      · simp [freeBytes]

end Sys2Proof.Machine
end

