-- ==== Sys2Proof/Laws/State.lean ====
section
/-! SUPPORT. One lemma for each field and each record update of the machine, so that no later proof unfolds an update. -/

namespace Sys2Proof.Machine

@[simp] theorem State.goto_cfg (s : State) (stage : Stage) (sub : Sub) : (s.goto stage sub).cfg = s.cfg := rfl
@[simp] theorem State.goto_bound (s : State) (stage : Stage) (sub : Sub) : (s.goto stage sub).bound = s.bound := rfl
@[simp] theorem State.goto_pinmap (s : State) (stage : Stage) (sub : Sub) : (s.goto stage sub).pinmap = s.pinmap := rfl
@[simp] theorem State.goto_pinIn (s : State) (stage : Stage) (sub : Sub) : (s.goto stage sub).pinIn = s.pinIn := rfl
@[simp] theorem State.goto_page (s : State) (stage : Stage) (sub : Sub) : (s.goto stage sub).page = s.page := rfl
@[simp] theorem State.goto_offs (s : State) (stage : Stage) (sub : Sub) : (s.goto stage sub).offs = s.offs := rfl
@[simp] theorem State.goto_len (s : State) (stage : Stage) (sub : Sub) : (s.goto stage sub).len = s.len := rfl
@[simp] theorem State.goto_sect (s : State) (stage : Stage) (sub : Sub) : (s.goto stage sub).sect = s.sect := rfl
@[simp] theorem State.goto_cmd (s : State) (stage : Stage) (sub : Sub) : (s.goto stage sub).cmd = s.cmd := rfl
@[simp] theorem State.goto_op (s : State) (stage : Stage) (sub : Sub) : (s.goto stage sub).op = s.op := rfl
@[simp] theorem State.goto_base (s : State) (stage : Stage) (sub : Sub) : (s.goto stage sub).base = s.base := rfl
@[simp] theorem State.goto_cur (s : State) (stage : Stage) (sub : Sub) : (s.goto stage sub).cur = s.cur := rfl
@[simp] theorem State.goto_endAddr (s : State) (stage : Stage) (sub : Sub) : (s.goto stage sub).endAddr = s.endAddr := rfl
@[simp] theorem State.goto_rem (s : State) (stage : Stage) (sub : Sub) : (s.goto stage sub).rem = s.rem := rfl
@[simp] theorem State.goto_chunk (s : State) (stage : Stage) (sub : Sub) : (s.goto stage sub).chunk = s.chunk := rfl
@[simp] theorem State.goto_pc (s : State) (stage : Stage) (sub : Sub) : (s.goto stage sub).pc = ⟨stage, sub⟩ := rfl
@[simp] theorem State.goto_busy (s : State) (stage : Stage) (sub : Sub) : (s.goto stage sub).busy = s.busy := rfl
@[simp] theorem State.goto_done (s : State) (stage : Stage) (sub : Sub) : (s.goto stage sub).done = s.done := rfl
@[simp] theorem State.goto_result (s : State) (stage : Stage) (sub : Sub) : (s.goto stage sub).result = s.result := rfl
@[simp] theorem State.goto_id (s : State) (stage : Stage) (sub : Sub) : (s.goto stage sub).id = s.id := rfl
@[simp] theorem State.goto_selected (s : State) (stage : Stage) (sub : Sub) : (s.goto stage sub).selected = s.selected := rfl
@[simp] theorem State.goto_pending (s : State) (stage : Stage) (sub : Sub) : (s.goto stage sub).pending = s.pending := rfl
@[simp] theorem State.goto_resp (s : State) (stage : Stage) (sub : Sub) : (s.goto stage sub).resp = s.resp := rfl
@[simp] theorem State.goto_src (s : State) (stage : Stage) (sub : Sub) : (s.goto stage sub).src = s.src := rfl
@[simp] theorem State.goto_dst (s : State) (stage : Stage) (sub : Sub) : (s.goto stage sub).dst = s.dst := rfl
@[simp] theorem State.goto_dev (s : State) (stage : Stage) (sub : Sub) : (s.goto stage sub).dev = s.dev := rfl
@[simp] theorem State.goto_answers (s : State) (stage : Stage) (sub : Sub) : (s.goto stage sub).answers = s.answers := rfl
@[simp] theorem State.goto_port (s : State) (stage : Stage) (sub : Sub) : (s.goto stage sub).port = s.port := rfl
@[simp] theorem State.goto_trace (s : State) (stage : Stage) (sub : Sub) : (s.goto stage sub).trace = s.trace := rfl
@[simp] theorem State.goto_draws (s : State) (stage : Stage) (sub : Sub) : (s.goto stage sub).draws = s.draws := rfl

@[simp] theorem State.emit_cfg (s : State) (e : Event) : (s.emit e).cfg = s.cfg := rfl
@[simp] theorem State.emit_bound (s : State) (e : Event) : (s.emit e).bound = s.bound := rfl
@[simp] theorem State.emit_pinmap (s : State) (e : Event) : (s.emit e).pinmap = s.pinmap := rfl
@[simp] theorem State.emit_pinIn (s : State) (e : Event) : (s.emit e).pinIn = s.pinIn := rfl
@[simp] theorem State.emit_page (s : State) (e : Event) : (s.emit e).page = s.page := rfl
@[simp] theorem State.emit_offs (s : State) (e : Event) : (s.emit e).offs = s.offs := rfl
@[simp] theorem State.emit_len (s : State) (e : Event) : (s.emit e).len = s.len := rfl
@[simp] theorem State.emit_sect (s : State) (e : Event) : (s.emit e).sect = s.sect := rfl
@[simp] theorem State.emit_cmd (s : State) (e : Event) : (s.emit e).cmd = s.cmd := rfl
@[simp] theorem State.emit_op (s : State) (e : Event) : (s.emit e).op = s.op := rfl
@[simp] theorem State.emit_base (s : State) (e : Event) : (s.emit e).base = s.base := rfl
@[simp] theorem State.emit_cur (s : State) (e : Event) : (s.emit e).cur = s.cur := rfl
@[simp] theorem State.emit_endAddr (s : State) (e : Event) : (s.emit e).endAddr = s.endAddr := rfl
@[simp] theorem State.emit_rem (s : State) (e : Event) : (s.emit e).rem = s.rem := rfl
@[simp] theorem State.emit_chunk (s : State) (e : Event) : (s.emit e).chunk = s.chunk := rfl
@[simp] theorem State.emit_pc (s : State) (e : Event) : (s.emit e).pc = s.pc := rfl
@[simp] theorem State.emit_busy (s : State) (e : Event) : (s.emit e).busy = s.busy := rfl
@[simp] theorem State.emit_done (s : State) (e : Event) : (s.emit e).done = s.done := rfl
@[simp] theorem State.emit_result (s : State) (e : Event) : (s.emit e).result = s.result := rfl
@[simp] theorem State.emit_id (s : State) (e : Event) : (s.emit e).id = s.id := rfl
@[simp] theorem State.emit_selected (s : State) (e : Event) : (s.emit e).selected = s.selected := rfl
@[simp] theorem State.emit_pending (s : State) (e : Event) : (s.emit e).pending = s.pending := rfl
@[simp] theorem State.emit_resp (s : State) (e : Event) : (s.emit e).resp = s.resp := rfl
@[simp] theorem State.emit_src (s : State) (e : Event) : (s.emit e).src = s.src := rfl
@[simp] theorem State.emit_dst (s : State) (e : Event) : (s.emit e).dst = s.dst := rfl
@[simp] theorem State.emit_dev (s : State) (e : Event) : (s.emit e).dev = s.dev.onEvent s.cfg e := rfl
@[simp] theorem State.emit_answers (s : State) (e : Event) : (s.emit e).answers = s.answers := rfl
@[simp] theorem State.emit_port (s : State) (e : Event) : (s.emit e).port = s.port := rfl
@[simp] theorem State.emit_trace (s : State) (e : Event) : (s.emit e).trace = s.trace ++ [e] := rfl
@[simp] theorem State.emit_draws (s : State) (e : Event) : (s.emit e).draws = s.draws := rfl

@[simp] theorem State.dropAnswer_cfg (s : State) : (s.dropAnswer).cfg = s.cfg := rfl
@[simp] theorem State.dropAnswer_bound (s : State) : (s.dropAnswer).bound = s.bound := rfl
@[simp] theorem State.dropAnswer_pinmap (s : State) : (s.dropAnswer).pinmap = s.pinmap := rfl
@[simp] theorem State.dropAnswer_pinIn (s : State) : (s.dropAnswer).pinIn = s.pinIn := rfl
@[simp] theorem State.dropAnswer_page (s : State) : (s.dropAnswer).page = s.page := rfl
@[simp] theorem State.dropAnswer_offs (s : State) : (s.dropAnswer).offs = s.offs := rfl
@[simp] theorem State.dropAnswer_len (s : State) : (s.dropAnswer).len = s.len := rfl
@[simp] theorem State.dropAnswer_sect (s : State) : (s.dropAnswer).sect = s.sect := rfl
@[simp] theorem State.dropAnswer_cmd (s : State) : (s.dropAnswer).cmd = s.cmd := rfl
@[simp] theorem State.dropAnswer_op (s : State) : (s.dropAnswer).op = s.op := rfl
@[simp] theorem State.dropAnswer_base (s : State) : (s.dropAnswer).base = s.base := rfl
@[simp] theorem State.dropAnswer_cur (s : State) : (s.dropAnswer).cur = s.cur := rfl
@[simp] theorem State.dropAnswer_endAddr (s : State) : (s.dropAnswer).endAddr = s.endAddr := rfl
@[simp] theorem State.dropAnswer_rem (s : State) : (s.dropAnswer).rem = s.rem := rfl
@[simp] theorem State.dropAnswer_chunk (s : State) : (s.dropAnswer).chunk = s.chunk := rfl
@[simp] theorem State.dropAnswer_pc (s : State) : (s.dropAnswer).pc = s.pc := rfl
@[simp] theorem State.dropAnswer_busy (s : State) : (s.dropAnswer).busy = s.busy := rfl
@[simp] theorem State.dropAnswer_done (s : State) : (s.dropAnswer).done = s.done := rfl
@[simp] theorem State.dropAnswer_result (s : State) : (s.dropAnswer).result = s.result := rfl
@[simp] theorem State.dropAnswer_id (s : State) : (s.dropAnswer).id = s.id := rfl
@[simp] theorem State.dropAnswer_selected (s : State) : (s.dropAnswer).selected = s.selected := rfl
@[simp] theorem State.dropAnswer_pending (s : State) : (s.dropAnswer).pending = s.pending := rfl
@[simp] theorem State.dropAnswer_resp (s : State) : (s.dropAnswer).resp = s.resp := rfl
@[simp] theorem State.dropAnswer_src (s : State) : (s.dropAnswer).src = s.src := rfl
@[simp] theorem State.dropAnswer_dst (s : State) : (s.dropAnswer).dst = s.dst := rfl
@[simp] theorem State.dropAnswer_dev (s : State) : (s.dropAnswer).dev = s.dev := rfl
@[simp] theorem State.dropAnswer_answers (s : State) : (s.dropAnswer).answers = s.answers.tail := rfl
@[simp] theorem State.dropAnswer_port (s : State) : (s.dropAnswer).port = s.port := rfl
@[simp] theorem State.dropAnswer_trace (s : State) : (s.dropAnswer).trace = s.trace := rfl
@[simp] theorem State.dropAnswer_draws (s : State) : (s.dropAnswer).draws = s.draws := rfl

@[simp] theorem State.select_cfg (s : State) : (s.select).cfg = s.cfg := rfl
@[simp] theorem State.select_bound (s : State) : (s.select).bound = s.bound := rfl
@[simp] theorem State.select_pinmap (s : State) : (s.select).pinmap = s.pinmap := rfl
@[simp] theorem State.select_pinIn (s : State) : (s.select).pinIn = s.pinIn := rfl
@[simp] theorem State.select_page (s : State) : (s.select).page = s.page := rfl
@[simp] theorem State.select_offs (s : State) : (s.select).offs = s.offs := rfl
@[simp] theorem State.select_len (s : State) : (s.select).len = s.len := rfl
@[simp] theorem State.select_sect (s : State) : (s.select).sect = s.sect := rfl
@[simp] theorem State.select_cmd (s : State) : (s.select).cmd = s.cmd := rfl
@[simp] theorem State.select_op (s : State) : (s.select).op = s.op := rfl
@[simp] theorem State.select_base (s : State) : (s.select).base = s.base := rfl
@[simp] theorem State.select_cur (s : State) : (s.select).cur = s.cur := rfl
@[simp] theorem State.select_endAddr (s : State) : (s.select).endAddr = s.endAddr := rfl
@[simp] theorem State.select_rem (s : State) : (s.select).rem = s.rem := rfl
@[simp] theorem State.select_chunk (s : State) : (s.select).chunk = s.chunk := rfl
@[simp] theorem State.select_pc (s : State) : (s.select).pc = ⟨s.pc.stage, .tx⟩ := rfl
@[simp] theorem State.select_busy (s : State) : (s.select).busy = s.busy := rfl
@[simp] theorem State.select_done (s : State) : (s.select).done = s.done := rfl
@[simp] theorem State.select_result (s : State) : (s.select).result = s.result := rfl
@[simp] theorem State.select_id (s : State) : (s.select).id = s.id := rfl
@[simp] theorem State.select_selected (s : State) : (s.select).selected = true := rfl
@[simp] theorem State.select_pending (s : State) : (s.select).pending = s.pending := rfl
@[simp] theorem State.select_resp (s : State) : (s.select).resp = s.resp := rfl
@[simp] theorem State.select_src (s : State) : (s.select).src = s.src := rfl
@[simp] theorem State.select_dst (s : State) : (s.select).dst = s.dst := rfl
@[simp] theorem State.select_dev (s : State) : (s.select).dev = s.dev.onEvent s.cfg .sel := rfl
@[simp] theorem State.select_answers (s : State) : (s.select).answers = s.answers := rfl
@[simp] theorem State.select_port (s : State) : (s.select).port = s.port := rfl
@[simp] theorem State.select_trace (s : State) : (s.select).trace = s.trace ++ [.sel] := rfl
@[simp] theorem State.select_draws (s : State) : (s.select).draws = s.draws := rfl

@[simp] theorem State.deselect_cfg (s : State) : (s.deselect).cfg = s.cfg := rfl
@[simp] theorem State.deselect_bound (s : State) : (s.deselect).bound = s.bound := rfl
@[simp] theorem State.deselect_pinmap (s : State) : (s.deselect).pinmap = s.pinmap := rfl
@[simp] theorem State.deselect_pinIn (s : State) : (s.deselect).pinIn = s.pinIn := rfl
@[simp] theorem State.deselect_page (s : State) : (s.deselect).page = s.page := rfl
@[simp] theorem State.deselect_offs (s : State) : (s.deselect).offs = s.offs := rfl
@[simp] theorem State.deselect_len (s : State) : (s.deselect).len = s.len := rfl
@[simp] theorem State.deselect_sect (s : State) : (s.deselect).sect = s.sect := rfl
@[simp] theorem State.deselect_cmd (s : State) : (s.deselect).cmd = s.cmd := rfl
@[simp] theorem State.deselect_op (s : State) : (s.deselect).op = s.op := rfl
@[simp] theorem State.deselect_base (s : State) : (s.deselect).base = s.base := rfl
@[simp] theorem State.deselect_cur (s : State) : (s.deselect).cur = s.cur := rfl
@[simp] theorem State.deselect_endAddr (s : State) : (s.deselect).endAddr = s.endAddr := rfl
@[simp] theorem State.deselect_rem (s : State) : (s.deselect).rem = s.rem := rfl
@[simp] theorem State.deselect_chunk (s : State) : (s.deselect).chunk = s.chunk := rfl
@[simp] theorem State.deselect_pc (s : State) : (s.deselect).pc = s.pc := rfl
@[simp] theorem State.deselect_busy (s : State) : (s.deselect).busy = s.busy := rfl
@[simp] theorem State.deselect_done (s : State) : (s.deselect).done = s.done := rfl
@[simp] theorem State.deselect_result (s : State) : (s.deselect).result = s.result := rfl
@[simp] theorem State.deselect_id (s : State) : (s.deselect).id = s.id := rfl
@[simp] theorem State.deselect_selected (s : State) : (s.deselect).selected = false := rfl
@[simp] theorem State.deselect_pending (s : State) : (s.deselect).pending = s.pending := rfl
@[simp] theorem State.deselect_resp (s : State) : (s.deselect).resp = s.resp := rfl
@[simp] theorem State.deselect_src (s : State) : (s.deselect).src = s.src := rfl
@[simp] theorem State.deselect_dst (s : State) : (s.deselect).dst = s.dst := rfl
@[simp] theorem State.deselect_dev (s : State) : (s.deselect).dev = s.dev.onEvent s.cfg .desel := rfl
@[simp] theorem State.deselect_answers (s : State) : (s.deselect).answers = s.answers := rfl
@[simp] theorem State.deselect_port (s : State) : (s.deselect).port = s.port := rfl
@[simp] theorem State.deselect_trace (s : State) : (s.deselect).trace = s.trace ++ [.desel] := rfl
@[simp] theorem State.deselect_draws (s : State) : (s.deselect).draws = s.draws := rfl

@[simp] theorem State.delay_cfg (s : State) (d : DelayParam) : (s.delay d).cfg = s.cfg := rfl
@[simp] theorem State.delay_bound (s : State) (d : DelayParam) : (s.delay d).bound = s.bound := rfl
@[simp] theorem State.delay_pinmap (s : State) (d : DelayParam) : (s.delay d).pinmap = s.pinmap := rfl
@[simp] theorem State.delay_pinIn (s : State) (d : DelayParam) : (s.delay d).pinIn = s.pinIn := rfl
@[simp] theorem State.delay_page (s : State) (d : DelayParam) : (s.delay d).page = s.page := rfl
@[simp] theorem State.delay_offs (s : State) (d : DelayParam) : (s.delay d).offs = s.offs := rfl
@[simp] theorem State.delay_len (s : State) (d : DelayParam) : (s.delay d).len = s.len := rfl
@[simp] theorem State.delay_sect (s : State) (d : DelayParam) : (s.delay d).sect = s.sect := rfl
@[simp] theorem State.delay_cmd (s : State) (d : DelayParam) : (s.delay d).cmd = s.cmd := rfl
@[simp] theorem State.delay_op (s : State) (d : DelayParam) : (s.delay d).op = s.op := rfl
@[simp] theorem State.delay_base (s : State) (d : DelayParam) : (s.delay d).base = s.base := rfl
@[simp] theorem State.delay_cur (s : State) (d : DelayParam) : (s.delay d).cur = s.cur := rfl
@[simp] theorem State.delay_endAddr (s : State) (d : DelayParam) : (s.delay d).endAddr = s.endAddr := rfl
@[simp] theorem State.delay_rem (s : State) (d : DelayParam) : (s.delay d).rem = s.rem := rfl
@[simp] theorem State.delay_chunk (s : State) (d : DelayParam) : (s.delay d).chunk = s.chunk := rfl
@[simp] theorem State.delay_pc (s : State) (d : DelayParam) : (s.delay d).pc = s.pc := rfl
@[simp] theorem State.delay_busy (s : State) (d : DelayParam) : (s.delay d).busy = s.busy := rfl
@[simp] theorem State.delay_done (s : State) (d : DelayParam) : (s.delay d).done = s.done := rfl
@[simp] theorem State.delay_result (s : State) (d : DelayParam) : (s.delay d).result = s.result := rfl
@[simp] theorem State.delay_id (s : State) (d : DelayParam) : (s.delay d).id = s.id := rfl
@[simp] theorem State.delay_selected (s : State) (d : DelayParam) : (s.delay d).selected = s.selected := rfl
@[simp] theorem State.delay_pending (s : State) (d : DelayParam) : (s.delay d).pending = s.pending := rfl
@[simp] theorem State.delay_resp (s : State) (d : DelayParam) : (s.delay d).resp = s.resp := rfl
@[simp] theorem State.delay_src (s : State) (d : DelayParam) : (s.delay d).src = s.src := rfl
@[simp] theorem State.delay_dst (s : State) (d : DelayParam) : (s.delay d).dst = s.dst := rfl
@[simp] theorem State.delay_dev (s : State) (d : DelayParam) : (s.delay d).dev = s.dev.onEvent s.cfg (.dly d) := rfl
@[simp] theorem State.delay_answers (s : State) (d : DelayParam) : (s.delay d).answers = s.answers := rfl
@[simp] theorem State.delay_port (s : State) (d : DelayParam) : (s.delay d).port = s.port := rfl
@[simp] theorem State.delay_trace (s : State) (d : DelayParam) : (s.delay d).trace = s.trace ++ [.dly d] := rfl
@[simp] theorem State.delay_draws (s : State) (d : DelayParam) : (s.delay d).draws = s.draws := rfl

@[simp] theorem State.complete_cfg (s : State) : (s.complete).cfg = s.cfg := rfl
@[simp] theorem State.complete_bound (s : State) : (s.complete).bound = s.bound := rfl
@[simp] theorem State.complete_pinmap (s : State) : (s.complete).pinmap = s.pinmap := rfl
@[simp] theorem State.complete_pinIn (s : State) : (s.complete).pinIn = s.pinIn := rfl
@[simp] theorem State.complete_page (s : State) : (s.complete).page = s.page := rfl
@[simp] theorem State.complete_offs (s : State) : (s.complete).offs = s.offs := rfl
@[simp] theorem State.complete_len (s : State) : (s.complete).len = s.len := rfl
@[simp] theorem State.complete_sect (s : State) : (s.complete).sect = s.sect := rfl
@[simp] theorem State.complete_cmd (s : State) : (s.complete).cmd = s.cmd := rfl
@[simp] theorem State.complete_op (s : State) : (s.complete).op = s.op := rfl
@[simp] theorem State.complete_base (s : State) : (s.complete).base = s.base := rfl
@[simp] theorem State.complete_cur (s : State) : (s.complete).cur = s.cur := rfl
@[simp] theorem State.complete_endAddr (s : State) : (s.complete).endAddr = s.endAddr := rfl
@[simp] theorem State.complete_rem (s : State) : (s.complete).rem = s.rem := rfl
@[simp] theorem State.complete_chunk (s : State) : (s.complete).chunk = s.chunk := rfl
@[simp] theorem State.complete_pc (s : State) : (s.complete).pc = ⟨.fin, .dash⟩ := rfl
@[simp] theorem State.complete_busy (s : State) : (s.complete).busy = s.busy := rfl
@[simp] theorem State.complete_done (s : State) : (s.complete).done = s.done := rfl
@[simp] theorem State.complete_result (s : State) : (s.complete).result = s.result := rfl
@[simp] theorem State.complete_id (s : State) : (s.complete).id = s.id := rfl
@[simp] theorem State.complete_selected (s : State) : (s.complete).selected = s.selected := rfl
@[simp] theorem State.complete_pending (s : State) : (s.complete).pending = .ok := rfl
@[simp] theorem State.complete_resp (s : State) : (s.complete).resp = s.resp := rfl
@[simp] theorem State.complete_src (s : State) : (s.complete).src = s.src := rfl
@[simp] theorem State.complete_dst (s : State) : (s.complete).dst = s.dst := rfl
@[simp] theorem State.complete_dev (s : State) : (s.complete).dev = s.dev := rfl
@[simp] theorem State.complete_answers (s : State) : (s.complete).answers = s.answers := rfl
@[simp] theorem State.complete_port (s : State) : (s.complete).port = s.port := rfl
@[simp] theorem State.complete_trace (s : State) : (s.complete).trace = s.trace := rfl
@[simp] theorem State.complete_draws (s : State) : (s.complete).draws = s.draws := rfl

@[simp] theorem State.markFinished_cfg (s : State) (r : Result) : (s.markFinished r).cfg = s.cfg := rfl
@[simp] theorem State.markFinished_bound (s : State) (r : Result) : (s.markFinished r).bound = s.bound := rfl
@[simp] theorem State.markFinished_pinmap (s : State) (r : Result) : (s.markFinished r).pinmap = s.pinmap := rfl
@[simp] theorem State.markFinished_pinIn (s : State) (r : Result) : (s.markFinished r).pinIn = s.pinIn := rfl
@[simp] theorem State.markFinished_page (s : State) (r : Result) : (s.markFinished r).page = s.page := rfl
@[simp] theorem State.markFinished_offs (s : State) (r : Result) : (s.markFinished r).offs = s.offs := rfl
@[simp] theorem State.markFinished_len (s : State) (r : Result) : (s.markFinished r).len = s.len := rfl
@[simp] theorem State.markFinished_sect (s : State) (r : Result) : (s.markFinished r).sect = s.sect := rfl
@[simp] theorem State.markFinished_cmd (s : State) (r : Result) : (s.markFinished r).cmd = s.cmd := rfl
@[simp] theorem State.markFinished_op (s : State) (r : Result) : (s.markFinished r).op = s.op := rfl
@[simp] theorem State.markFinished_base (s : State) (r : Result) : (s.markFinished r).base = s.base := rfl
@[simp] theorem State.markFinished_cur (s : State) (r : Result) : (s.markFinished r).cur = s.cur := rfl
@[simp] theorem State.markFinished_endAddr (s : State) (r : Result) : (s.markFinished r).endAddr = s.endAddr := rfl
@[simp] theorem State.markFinished_rem (s : State) (r : Result) : (s.markFinished r).rem = s.rem := rfl
@[simp] theorem State.markFinished_chunk (s : State) (r : Result) : (s.markFinished r).chunk = s.chunk := rfl
@[simp] theorem State.markFinished_pc (s : State) (r : Result) : (s.markFinished r).pc = s.pc := rfl
@[simp] theorem State.markFinished_busy (s : State) (r : Result) : (s.markFinished r).busy = false := rfl
@[simp] theorem State.markFinished_done (s : State) (r : Result) : (s.markFinished r).done = true := rfl
@[simp] theorem State.markFinished_result (s : State) (r : Result) : (s.markFinished r).result = r := rfl
@[simp] theorem State.markFinished_id (s : State) (r : Result) : (s.markFinished r).id = s.id := rfl
@[simp] theorem State.markFinished_selected (s : State) (r : Result) : (s.markFinished r).selected = s.selected := rfl
@[simp] theorem State.markFinished_pending (s : State) (r : Result) : (s.markFinished r).pending = s.pending := rfl
@[simp] theorem State.markFinished_resp (s : State) (r : Result) : (s.markFinished r).resp = s.resp := rfl
@[simp] theorem State.markFinished_src (s : State) (r : Result) : (s.markFinished r).src = s.src := rfl
@[simp] theorem State.markFinished_dst (s : State) (r : Result) : (s.markFinished r).dst = s.dst := rfl
@[simp] theorem State.markFinished_dev (s : State) (r : Result) : (s.markFinished r).dev = s.dev := rfl
@[simp] theorem State.markFinished_answers (s : State) (r : Result) : (s.markFinished r).answers = s.answers := rfl
@[simp] theorem State.markFinished_port (s : State) (r : Result) : (s.markFinished r).port = s.port := rfl
@[simp] theorem State.markFinished_trace (s : State) (r : Result) : (s.markFinished r).trace = s.trace := rfl
@[simp] theorem State.markFinished_draws (s : State) (r : Result) : (s.markFinished r).draws = s.draws := rfl

@[simp] theorem State.finish_cfg (s : State) : (s.finish).cfg = s.cfg := rfl
@[simp] theorem State.finish_bound (s : State) : (s.finish).bound = s.bound := rfl
@[simp] theorem State.finish_pinmap (s : State) : (s.finish).pinmap = s.pinmap := rfl
@[simp] theorem State.finish_pinIn (s : State) : (s.finish).pinIn = s.pinIn := rfl
@[simp] theorem State.finish_page (s : State) : (s.finish).page = s.page := rfl
@[simp] theorem State.finish_offs (s : State) : (s.finish).offs = s.offs := rfl
@[simp] theorem State.finish_len (s : State) : (s.finish).len = s.len := rfl
@[simp] theorem State.finish_sect (s : State) : (s.finish).sect = s.sect := rfl
@[simp] theorem State.finish_cmd (s : State) : (s.finish).cmd = s.cmd := rfl
@[simp] theorem State.finish_op (s : State) : (s.finish).op = s.op := rfl
@[simp] theorem State.finish_base (s : State) : (s.finish).base = s.base := rfl
@[simp] theorem State.finish_cur (s : State) : (s.finish).cur = s.cur := rfl
@[simp] theorem State.finish_endAddr (s : State) : (s.finish).endAddr = s.endAddr := rfl
@[simp] theorem State.finish_rem (s : State) : (s.finish).rem = s.rem := rfl
@[simp] theorem State.finish_chunk (s : State) : (s.finish).chunk = s.chunk := rfl
@[simp] theorem State.finish_pc (s : State) : (s.finish).pc = ⟨.idle, .dash⟩ := rfl
@[simp] theorem State.finish_busy (s : State) : (s.finish).busy = false := rfl
@[simp] theorem State.finish_done (s : State) : (s.finish).done = true := rfl
@[simp] theorem State.finish_result (s : State) : (s.finish).result = s.pending := rfl
@[simp] theorem State.finish_id (s : State) : (s.finish).id = s.id := rfl
@[simp] theorem State.finish_selected (s : State) : (s.finish).selected = s.selected := rfl
@[simp] theorem State.finish_pending (s : State) : (s.finish).pending = s.pending := rfl
@[simp] theorem State.finish_resp (s : State) : (s.finish).resp = s.resp := rfl
@[simp] theorem State.finish_src (s : State) : (s.finish).src = s.src := rfl
@[simp] theorem State.finish_dst (s : State) : (s.finish).dst = s.dst := rfl
@[simp] theorem State.finish_dev (s : State) : (s.finish).dev = s.dev := rfl
@[simp] theorem State.finish_answers (s : State) : (s.finish).answers = s.answers := rfl
@[simp] theorem State.finish_port (s : State) : (s.finish).port = s.port := rfl
@[simp] theorem State.finish_trace (s : State) : (s.finish).trace = s.trace := rfl
@[simp] theorem State.finish_draws (s : State) : (s.finish).draws = s.draws := rfl

@[simp] theorem State.accepted_cfg (s : State) (o : Op) : (s.accepted o).cfg = s.cfg := rfl
@[simp] theorem State.accepted_bound (s : State) (o : Op) : (s.accepted o).bound = s.bound := rfl
@[simp] theorem State.accepted_pinmap (s : State) (o : Op) : (s.accepted o).pinmap = s.pinmap := rfl
@[simp] theorem State.accepted_pinIn (s : State) (o : Op) : (s.accepted o).pinIn = s.pinIn := rfl
@[simp] theorem State.accepted_page (s : State) (o : Op) : (s.accepted o).page = s.page := rfl
@[simp] theorem State.accepted_offs (s : State) (o : Op) : (s.accepted o).offs = s.offs := rfl
@[simp] theorem State.accepted_len (s : State) (o : Op) : (s.accepted o).len = s.len := rfl
@[simp] theorem State.accepted_sect (s : State) (o : Op) : (s.accepted o).sect = s.sect := rfl
@[simp] theorem State.accepted_cmd (s : State) (o : Op) : (s.accepted o).cmd = s.cmd := rfl
@[simp] theorem State.accepted_op (s : State) (o : Op) : (s.accepted o).op = o := rfl
@[simp] theorem State.accepted_base (s : State) (o : Op) : (s.accepted o).base = s.base := rfl
@[simp] theorem State.accepted_cur (s : State) (o : Op) : (s.accepted o).cur = s.cur := rfl
@[simp] theorem State.accepted_endAddr (s : State) (o : Op) : (s.accepted o).endAddr = s.endAddr := rfl
@[simp] theorem State.accepted_rem (s : State) (o : Op) : (s.accepted o).rem = s.rem := rfl
@[simp] theorem State.accepted_chunk (s : State) (o : Op) : (s.accepted o).chunk = s.chunk := rfl
@[simp] theorem State.accepted_pc (s : State) (o : Op) : (s.accepted o).pc = ⟨.chk, .dash⟩ := rfl
@[simp] theorem State.accepted_busy (s : State) (o : Op) : (s.accepted o).busy = true := rfl
@[simp] theorem State.accepted_done (s : State) (o : Op) : (s.accepted o).done = false := rfl
@[simp] theorem State.accepted_result (s : State) (o : Op) : (s.accepted o).result = s.result := rfl
@[simp] theorem State.accepted_id (s : State) (o : Op) : (s.accepted o).id = s.id := rfl
@[simp] theorem State.accepted_selected (s : State) (o : Op) : (s.accepted o).selected = s.selected := rfl
@[simp] theorem State.accepted_pending (s : State) (o : Op) : (s.accepted o).pending = .ok := rfl
@[simp] theorem State.accepted_resp (s : State) (o : Op) : (s.accepted o).resp = s.resp := rfl
@[simp] theorem State.accepted_src (s : State) (o : Op) : (s.accepted o).src = s.src := rfl
@[simp] theorem State.accepted_dst (s : State) (o : Op) : (s.accepted o).dst = s.dst := rfl
@[simp] theorem State.accepted_dev (s : State) (o : Op) : (s.accepted o).dev = s.dev := rfl
@[simp] theorem State.accepted_answers (s : State) (o : Op) : (s.accepted o).answers = s.answers := rfl
@[simp] theorem State.accepted_port (s : State) (o : Op) : (s.accepted o).port = s.port := rfl
@[simp] theorem State.accepted_trace (s : State) (o : Op) : (s.accepted o).trace = s.trace := rfl
@[simp] theorem State.accepted_draws (s : State) (o : Op) : (s.accepted o).draws = s.draws := rfl

@[simp] theorem State.startWrite_cfg (s : State) : (s.startWrite).cfg = s.cfg := rfl
@[simp] theorem State.startWrite_bound (s : State) : (s.startWrite).bound = s.bound := rfl
@[simp] theorem State.startWrite_pinmap (s : State) : (s.startWrite).pinmap = s.pinmap := rfl
@[simp] theorem State.startWrite_pinIn (s : State) : (s.startWrite).pinIn = s.pinIn := rfl
@[simp] theorem State.startWrite_page (s : State) : (s.startWrite).page = s.page := rfl
@[simp] theorem State.startWrite_offs (s : State) : (s.startWrite).offs = s.offs := rfl
@[simp] theorem State.startWrite_len (s : State) : (s.startWrite).len = s.len := rfl
@[simp] theorem State.startWrite_sect (s : State) : (s.startWrite).sect = s.sect := rfl
@[simp] theorem State.startWrite_cmd (s : State) : (s.startWrite).cmd = s.cmd := rfl
@[simp] theorem State.startWrite_op (s : State) : (s.startWrite).op = s.op := rfl
@[simp] theorem State.startWrite_base (s : State) : (s.startWrite).base = s.start := rfl
@[simp] theorem State.startWrite_cur (s : State) : (s.startWrite).cur = s.start := rfl
@[simp] theorem State.startWrite_endAddr (s : State) : (s.startWrite).endAddr = s.start + s.len := rfl
@[simp] theorem State.startWrite_rem (s : State) : (s.startWrite).rem = Config.pageSize - s.start % Config.pageSize := rfl
@[simp] theorem State.startWrite_chunk (s : State) : (s.startWrite).chunk = s.chunk := rfl
@[simp] theorem State.startWrite_pc (s : State) : (s.startWrite).pc = s.pc := rfl
@[simp] theorem State.startWrite_busy (s : State) : (s.startWrite).busy = s.busy := rfl
@[simp] theorem State.startWrite_done (s : State) : (s.startWrite).done = s.done := rfl
@[simp] theorem State.startWrite_result (s : State) : (s.startWrite).result = s.result := rfl
@[simp] theorem State.startWrite_id (s : State) : (s.startWrite).id = s.id := rfl
@[simp] theorem State.startWrite_selected (s : State) : (s.startWrite).selected = s.selected := rfl
@[simp] theorem State.startWrite_pending (s : State) : (s.startWrite).pending = s.pending := rfl
@[simp] theorem State.startWrite_resp (s : State) : (s.startWrite).resp = s.resp := rfl
@[simp] theorem State.startWrite_src (s : State) : (s.startWrite).src = s.src := rfl
@[simp] theorem State.startWrite_dst (s : State) : (s.startWrite).dst = s.dst := rfl
@[simp] theorem State.startWrite_dev (s : State) : (s.startWrite).dev = s.dev := rfl
@[simp] theorem State.startWrite_answers (s : State) : (s.startWrite).answers = s.answers := rfl
@[simp] theorem State.startWrite_port (s : State) : (s.startWrite).port = s.port := rfl
@[simp] theorem State.startWrite_trace (s : State) : (s.startWrite).trace = s.trace := rfl
@[simp] theorem State.startWrite_draws (s : State) : (s.startWrite).draws = s.draws := rfl

@[simp] theorem State.advance_cfg (s : State) : (s.advance).cfg = s.cfg := rfl
@[simp] theorem State.advance_bound (s : State) : (s.advance).bound = s.bound := rfl
@[simp] theorem State.advance_pinmap (s : State) : (s.advance).pinmap = s.pinmap := rfl
@[simp] theorem State.advance_pinIn (s : State) : (s.advance).pinIn = s.pinIn := rfl
@[simp] theorem State.advance_page (s : State) : (s.advance).page = s.page := rfl
@[simp] theorem State.advance_offs (s : State) : (s.advance).offs = s.offs := rfl
@[simp] theorem State.advance_len (s : State) : (s.advance).len = s.len := rfl
@[simp] theorem State.advance_sect (s : State) : (s.advance).sect = s.sect := rfl
@[simp] theorem State.advance_cmd (s : State) : (s.advance).cmd = s.cmd := rfl
@[simp] theorem State.advance_op (s : State) : (s.advance).op = s.op := rfl
@[simp] theorem State.advance_base (s : State) : (s.advance).base = s.base := rfl
@[simp] theorem State.advance_cur (s : State) : (s.advance).cur = s.cur + s.chunk := rfl
@[simp] theorem State.advance_endAddr (s : State) : (s.advance).endAddr = s.endAddr := rfl
@[simp] theorem State.advance_rem (s : State) : (s.advance).rem = Config.pageSize := rfl
@[simp] theorem State.advance_chunk (s : State) : (s.advance).chunk = s.chunk := rfl
@[simp] theorem State.advance_pc (s : State) : (s.advance).pc = s.pc := rfl
@[simp] theorem State.advance_busy (s : State) : (s.advance).busy = s.busy := rfl
@[simp] theorem State.advance_done (s : State) : (s.advance).done = s.done := rfl
@[simp] theorem State.advance_result (s : State) : (s.advance).result = s.result := rfl
@[simp] theorem State.advance_id (s : State) : (s.advance).id = s.id := rfl
@[simp] theorem State.advance_selected (s : State) : (s.advance).selected = s.selected := rfl
@[simp] theorem State.advance_pending (s : State) : (s.advance).pending = s.pending := rfl
@[simp] theorem State.advance_resp (s : State) : (s.advance).resp = s.resp := rfl
@[simp] theorem State.advance_src (s : State) : (s.advance).src = s.src := rfl
@[simp] theorem State.advance_dst (s : State) : (s.advance).dst = s.dst := rfl
@[simp] theorem State.advance_dev (s : State) : (s.advance).dev = s.dev := rfl
@[simp] theorem State.advance_answers (s : State) : (s.advance).answers = s.answers := rfl
@[simp] theorem State.advance_port (s : State) : (s.advance).port = s.port := rfl
@[simp] theorem State.advance_trace (s : State) : (s.advance).trace = s.trace := rfl
@[simp] theorem State.advance_draws (s : State) : (s.advance).draws = s.draws := rfl

@[simp] theorem State.writeDst_cfg (s : State) (bytes : List Byte) : (s.writeDst bytes).cfg = s.cfg := rfl
@[simp] theorem State.writeDst_bound (s : State) (bytes : List Byte) : (s.writeDst bytes).bound = s.bound := rfl
@[simp] theorem State.writeDst_pinmap (s : State) (bytes : List Byte) : (s.writeDst bytes).pinmap = s.pinmap := rfl
@[simp] theorem State.writeDst_pinIn (s : State) (bytes : List Byte) : (s.writeDst bytes).pinIn = s.pinIn := rfl
@[simp] theorem State.writeDst_page (s : State) (bytes : List Byte) : (s.writeDst bytes).page = s.page := rfl
@[simp] theorem State.writeDst_offs (s : State) (bytes : List Byte) : (s.writeDst bytes).offs = s.offs := rfl
@[simp] theorem State.writeDst_len (s : State) (bytes : List Byte) : (s.writeDst bytes).len = s.len := rfl
@[simp] theorem State.writeDst_sect (s : State) (bytes : List Byte) : (s.writeDst bytes).sect = s.sect := rfl
@[simp] theorem State.writeDst_cmd (s : State) (bytes : List Byte) : (s.writeDst bytes).cmd = s.cmd := rfl
@[simp] theorem State.writeDst_op (s : State) (bytes : List Byte) : (s.writeDst bytes).op = s.op := rfl
@[simp] theorem State.writeDst_base (s : State) (bytes : List Byte) : (s.writeDst bytes).base = s.base := rfl
@[simp] theorem State.writeDst_cur (s : State) (bytes : List Byte) : (s.writeDst bytes).cur = s.cur := rfl
@[simp] theorem State.writeDst_endAddr (s : State) (bytes : List Byte) : (s.writeDst bytes).endAddr = s.endAddr := rfl
@[simp] theorem State.writeDst_rem (s : State) (bytes : List Byte) : (s.writeDst bytes).rem = s.rem := rfl
@[simp] theorem State.writeDst_chunk (s : State) (bytes : List Byte) : (s.writeDst bytes).chunk = s.chunk := rfl
@[simp] theorem State.writeDst_pc (s : State) (bytes : List Byte) : (s.writeDst bytes).pc = s.pc := rfl
@[simp] theorem State.writeDst_busy (s : State) (bytes : List Byte) : (s.writeDst bytes).busy = s.busy := rfl
@[simp] theorem State.writeDst_done (s : State) (bytes : List Byte) : (s.writeDst bytes).done = s.done := rfl
@[simp] theorem State.writeDst_result (s : State) (bytes : List Byte) : (s.writeDst bytes).result = s.result := rfl
@[simp] theorem State.writeDst_id (s : State) (bytes : List Byte) : (s.writeDst bytes).id = s.id := rfl
@[simp] theorem State.writeDst_selected (s : State) (bytes : List Byte) : (s.writeDst bytes).selected = s.selected := rfl
@[simp] theorem State.writeDst_pending (s : State) (bytes : List Byte) : (s.writeDst bytes).pending = s.pending := rfl
@[simp] theorem State.writeDst_resp (s : State) (bytes : List Byte) : (s.writeDst bytes).resp = s.resp := rfl
@[simp] theorem State.writeDst_src (s : State) (bytes : List Byte) : (s.writeDst bytes).src = s.src := rfl
@[simp] theorem State.writeDst_dst (s : State) (bytes : List Byte) : (s.writeDst bytes).dst = bytes ++ s.dst.drop bytes.length := rfl
@[simp] theorem State.writeDst_dev (s : State) (bytes : List Byte) : (s.writeDst bytes).dev = s.dev := rfl
@[simp] theorem State.writeDst_answers (s : State) (bytes : List Byte) : (s.writeDst bytes).answers = s.answers := rfl
@[simp] theorem State.writeDst_port (s : State) (bytes : List Byte) : (s.writeDst bytes).port = s.port := rfl
@[simp] theorem State.writeDst_trace (s : State) (bytes : List Byte) : (s.writeDst bytes).trace = s.trace := rfl
@[simp] theorem State.writeDst_draws (s : State) (bytes : List Byte) : (s.writeDst bytes).draws = s.draws := rfl

@[simp] theorem State.popPort_cfg (s : State) : (s.popPort).cfg = s.cfg := rfl
@[simp] theorem State.popPort_bound (s : State) : (s.popPort).bound = s.bound := rfl
@[simp] theorem State.popPort_pinmap (s : State) : (s.popPort).pinmap = s.pinmap := rfl
@[simp] theorem State.popPort_pinIn (s : State) : (s.popPort).pinIn = s.pinIn := rfl
@[simp] theorem State.popPort_page (s : State) : (s.popPort).page = s.page := rfl
@[simp] theorem State.popPort_offs (s : State) : (s.popPort).offs = s.offs := rfl
@[simp] theorem State.popPort_len (s : State) : (s.popPort).len = s.len := rfl
@[simp] theorem State.popPort_sect (s : State) : (s.popPort).sect = s.sect := rfl
@[simp] theorem State.popPort_cmd (s : State) : (s.popPort).cmd = s.cmd := rfl
@[simp] theorem State.popPort_op (s : State) : (s.popPort).op = s.op := rfl
@[simp] theorem State.popPort_base (s : State) : (s.popPort).base = s.base := rfl
@[simp] theorem State.popPort_cur (s : State) : (s.popPort).cur = s.cur := rfl
@[simp] theorem State.popPort_endAddr (s : State) : (s.popPort).endAddr = s.endAddr := rfl
@[simp] theorem State.popPort_rem (s : State) : (s.popPort).rem = s.rem := rfl
@[simp] theorem State.popPort_chunk (s : State) : (s.popPort).chunk = s.chunk := rfl
@[simp] theorem State.popPort_pc (s : State) : (s.popPort).pc = s.pc := rfl
@[simp] theorem State.popPort_busy (s : State) : (s.popPort).busy = s.busy := rfl
@[simp] theorem State.popPort_done (s : State) : (s.popPort).done = s.done := rfl
@[simp] theorem State.popPort_result (s : State) : (s.popPort).result = s.result := rfl
@[simp] theorem State.popPort_id (s : State) : (s.popPort).id = s.id := rfl
@[simp] theorem State.popPort_selected (s : State) : (s.popPort).selected = s.selected := rfl
@[simp] theorem State.popPort_pending (s : State) : (s.popPort).pending = s.pending := rfl
@[simp] theorem State.popPort_resp (s : State) : (s.popPort).resp = s.resp := rfl
@[simp] theorem State.popPort_src (s : State) : (s.popPort).src = s.src := rfl
@[simp] theorem State.popPort_dst (s : State) : (s.popPort).dst = s.dst := rfl
@[simp] theorem State.popPort_dev (s : State) : (s.popPort).dev = s.dev := rfl
@[simp] theorem State.popPort_answers (s : State) : (s.popPort).answers = s.answers := rfl
@[simp] theorem State.popPort_port (s : State) : (s.popPort).port = s.port.tail := rfl
@[simp] theorem State.popPort_trace (s : State) : (s.popPort).trace = s.trace := rfl
@[simp] theorem State.popPort_draws (s : State) : (s.popPort).draws = s.draws := rfl

/-! What a failure leaves of the outputs is `id`, `dst` and the draw counter; everything else is kept. -/

@[simp] theorem State.spoilOutputs_cfg (s : State) : s.spoilOutputs.cfg = s.cfg := by unfold State.spoilOutputs; split <;> rfl
@[simp] theorem State.spoilOutputs_bound (s : State) : s.spoilOutputs.bound = s.bound := by unfold State.spoilOutputs; split <;> rfl
@[simp] theorem State.spoilOutputs_pinmap (s : State) : s.spoilOutputs.pinmap = s.pinmap := by unfold State.spoilOutputs; split <;> rfl
@[simp] theorem State.spoilOutputs_pinIn (s : State) : s.spoilOutputs.pinIn = s.pinIn := by unfold State.spoilOutputs; split <;> rfl
@[simp] theorem State.spoilOutputs_page (s : State) : s.spoilOutputs.page = s.page := by unfold State.spoilOutputs; split <;> rfl
@[simp] theorem State.spoilOutputs_offs (s : State) : s.spoilOutputs.offs = s.offs := by unfold State.spoilOutputs; split <;> rfl
@[simp] theorem State.spoilOutputs_len (s : State) : s.spoilOutputs.len = s.len := by unfold State.spoilOutputs; split <;> rfl
@[simp] theorem State.spoilOutputs_sect (s : State) : s.spoilOutputs.sect = s.sect := by unfold State.spoilOutputs; split <;> rfl
@[simp] theorem State.spoilOutputs_cmd (s : State) : s.spoilOutputs.cmd = s.cmd := by unfold State.spoilOutputs; split <;> rfl
@[simp] theorem State.spoilOutputs_op (s : State) : s.spoilOutputs.op = s.op := by unfold State.spoilOutputs; split <;> rfl
@[simp] theorem State.spoilOutputs_base (s : State) : s.spoilOutputs.base = s.base := by unfold State.spoilOutputs; split <;> rfl
@[simp] theorem State.spoilOutputs_cur (s : State) : s.spoilOutputs.cur = s.cur := by unfold State.spoilOutputs; split <;> rfl
@[simp] theorem State.spoilOutputs_endAddr (s : State) : s.spoilOutputs.endAddr = s.endAddr := by unfold State.spoilOutputs; split <;> rfl
@[simp] theorem State.spoilOutputs_rem (s : State) : s.spoilOutputs.rem = s.rem := by unfold State.spoilOutputs; split <;> rfl
@[simp] theorem State.spoilOutputs_chunk (s : State) : s.spoilOutputs.chunk = s.chunk := by unfold State.spoilOutputs; split <;> rfl
@[simp] theorem State.spoilOutputs_pc (s : State) : s.spoilOutputs.pc = s.pc := by unfold State.spoilOutputs; split <;> rfl
@[simp] theorem State.spoilOutputs_busy (s : State) : s.spoilOutputs.busy = s.busy := by unfold State.spoilOutputs; split <;> rfl
@[simp] theorem State.spoilOutputs_done (s : State) : s.spoilOutputs.done = s.done := by unfold State.spoilOutputs; split <;> rfl
@[simp] theorem State.spoilOutputs_result (s : State) : s.spoilOutputs.result = s.result := by unfold State.spoilOutputs; split <;> rfl
@[simp] theorem State.spoilOutputs_selected (s : State) : s.spoilOutputs.selected = s.selected := by unfold State.spoilOutputs; split <;> rfl
@[simp] theorem State.spoilOutputs_pending (s : State) : s.spoilOutputs.pending = s.pending := by unfold State.spoilOutputs; split <;> rfl
@[simp] theorem State.spoilOutputs_resp (s : State) : s.spoilOutputs.resp = s.resp := by unfold State.spoilOutputs; split <;> rfl
@[simp] theorem State.spoilOutputs_src (s : State) : s.spoilOutputs.src = s.src := by unfold State.spoilOutputs; split <;> rfl
@[simp] theorem State.spoilOutputs_dev (s : State) : s.spoilOutputs.dev = s.dev := by unfold State.spoilOutputs; split <;> rfl
@[simp] theorem State.spoilOutputs_answers (s : State) : s.spoilOutputs.answers = s.answers := by unfold State.spoilOutputs; split <;> rfl
@[simp] theorem State.spoilOutputs_port (s : State) : s.spoilOutputs.port = s.port := by unfold State.spoilOutputs; split <;> rfl
@[simp] theorem State.spoilOutputs_trace (s : State) : s.spoilOutputs.trace = s.trace := by unfold State.spoilOutputs; split <;> rfl

@[simp] theorem State.raise_cfg (s : State) (r : Result) : (s.raise r).cfg = s.cfg := s.spoilOutputs_cfg
@[simp] theorem State.raise_bound (s : State) (r : Result) : (s.raise r).bound = s.bound := s.spoilOutputs_bound
@[simp] theorem State.raise_pinmap (s : State) (r : Result) : (s.raise r).pinmap = s.pinmap := s.spoilOutputs_pinmap
@[simp] theorem State.raise_pinIn (s : State) (r : Result) : (s.raise r).pinIn = s.pinIn := s.spoilOutputs_pinIn
@[simp] theorem State.raise_page (s : State) (r : Result) : (s.raise r).page = s.page := s.spoilOutputs_page
@[simp] theorem State.raise_offs (s : State) (r : Result) : (s.raise r).offs = s.offs := s.spoilOutputs_offs
@[simp] theorem State.raise_len (s : State) (r : Result) : (s.raise r).len = s.len := s.spoilOutputs_len
@[simp] theorem State.raise_sect (s : State) (r : Result) : (s.raise r).sect = s.sect := s.spoilOutputs_sect
@[simp] theorem State.raise_cmd (s : State) (r : Result) : (s.raise r).cmd = s.cmd := s.spoilOutputs_cmd
@[simp] theorem State.raise_op (s : State) (r : Result) : (s.raise r).op = s.op := s.spoilOutputs_op
@[simp] theorem State.raise_base (s : State) (r : Result) : (s.raise r).base = s.base := s.spoilOutputs_base
@[simp] theorem State.raise_cur (s : State) (r : Result) : (s.raise r).cur = s.cur := s.spoilOutputs_cur
@[simp] theorem State.raise_endAddr (s : State) (r : Result) : (s.raise r).endAddr = s.endAddr := s.spoilOutputs_endAddr
@[simp] theorem State.raise_rem (s : State) (r : Result) : (s.raise r).rem = s.rem := s.spoilOutputs_rem
@[simp] theorem State.raise_chunk (s : State) (r : Result) : (s.raise r).chunk = s.chunk := s.spoilOutputs_chunk
@[simp] theorem State.raise_pc (s : State) (r : Result) : (s.raise r).pc = ⟨.fin, .dash⟩ := rfl
@[simp] theorem State.raise_busy (s : State) (r : Result) : (s.raise r).busy = s.busy := s.spoilOutputs_busy
@[simp] theorem State.raise_done (s : State) (r : Result) : (s.raise r).done = s.done := s.spoilOutputs_done
@[simp] theorem State.raise_result (s : State) (r : Result) : (s.raise r).result = s.result := s.spoilOutputs_result
@[simp] theorem State.raise_selected (s : State) (r : Result) : (s.raise r).selected = s.selected := s.spoilOutputs_selected
@[simp] theorem State.raise_pending (s : State) (r : Result) : (s.raise r).pending = r := rfl
@[simp] theorem State.raise_resp (s : State) (r : Result) : (s.raise r).resp = s.resp := s.spoilOutputs_resp
@[simp] theorem State.raise_src (s : State) (r : Result) : (s.raise r).src = s.src := s.spoilOutputs_src
@[simp] theorem State.raise_dev (s : State) (r : Result) : (s.raise r).dev = s.dev := s.spoilOutputs_dev
@[simp] theorem State.raise_answers (s : State) (r : Result) : (s.raise r).answers = s.answers := s.spoilOutputs_answers
@[simp] theorem State.raise_port (s : State) (r : Result) : (s.raise r).port = s.port := s.spoilOutputs_port
@[simp] theorem State.raise_trace (s : State) (r : Result) : (s.raise r).trace = s.trace := s.spoilOutputs_trace

/-- Without an output to spoil, abort changes the pending result and the position only. -/
theorem State.raise_of_no_output (s : State) (r : Result) (h : s.op ∉ [Op.readId, .read, .fastRead]) :
    s.raise r = { s with pending := r, pc := ⟨.fin, .dash⟩ } := by
  have : s.spoilOutputs = s := by
    unfold State.spoilOutputs; split <;> simp_all
  unfold State.raise; rw [this]

end Sys2Proof.Machine
end

