-- ==== Sys2Proof/Laws/Ops.lean ====
section
/-! SUPPORT. What each shared operation can do, said once; the provers cite these and unfold nothing. -/

namespace Sys2Proof.Machine

/-! Answers. -/

theorem txAnswer_ok_or_err (s : State) : s.txAnswer = .ok ∨ ∃ k, s.txAnswer = .err k := by
  cases s.txAnswer with
  | ok => exact .inl rfl
  | err k => exact .inr ⟨k, rfl⟩

/-- A Receive that answers `ok` gives as many bytes as were asked for. -/
theorem rxAnswer_length {s : State} {n : Nat} {bytes : List Byte} (h : s.rxAnswer n = .ok bytes) : bytes.length = n := by
  unfold State.rxAnswer at h
  split at h
  · cases h
  · cases h; simp; omega
  · cases h; simp

/-- Scripted bytes of the right length are the response. -/
theorem rxAnswer_data {s : State} {n : Nat} {bytes : List Byte} {rest : List Answer} (h : s.answers = .data bytes :: rest)
    (hl : bytes.length = n) : s.rxAnswer n = .ok bytes := by
  subst hl
  have e : ((s.dev.respond s.cfg bytes.length).drop bytes.length).length = 0 := by simp
  simp [State.rxAnswer, h, List.length_eq_zero_iff.1 e]

theorem txAnswer_of_noErr {s : State} (h : ∀ a ∈ s.answers, a.isErr = false) : s.txAnswer = .ok := by
  unfold State.txAnswer
  split
  · next k hk =>
    have := h (.err k) (List.mem_of_mem_head? (by rw [hk]; rfl))
    simp [Answer.isErr] at this
  · rfl

/-! The calls. -/

theorem transmit_ok {s : State} (h : s.txAnswer = .ok) (f : List Byte) (r : Bool) :
    s.transmit f r = ((s.emit (.tx f .ok)).dropAnswer).goto s.pc.stage (if r then .rx else .desel) := by
  simp [State.transmit, h]

theorem transmit_err {s : State} {k : ErrKind} (h : s.txAnswer = .err k) (f : List Byte) (r : Bool) :
    s.transmit f r = ((s.emit (.tx f (.err k))).dropAnswer).failCall k := by
  simp [State.transmit, h]

theorem receive_ok {s : State} {n : Nat} {bytes : List Byte} (h : s.rxAnswer n = .ok bytes) :
    s.receive n = { (s.emit (.rx n (.ok bytes))).dropAnswer with resp := bytes, pc := ⟨s.pc.stage, .desel⟩ } := by
  simp [State.receive, h]

theorem receive_err {s : State} {n : Nat} {k : ErrKind} (h : s.rxAnswer n = .err k) :
    s.receive n = ((s.emit (.rx n (.err k))).dropAnswer).failCall k := by
  simp [State.receive, h]

theorem failCall_deselecting {s : State} (h : s.cfg.deselectOnFail = true) (k : ErrKind) :
    s.failCall k = { s with pending := translate k, pc := ⟨s.pc.stage, .desel⟩ } := by
  simp [State.failCall, h]

theorem failCall_aborting {s : State} (h : s.cfg.deselectOnFail = false) (k : ErrKind) : s.failCall k = s.raise (translate k) := by
  simp [State.failCall, h]

theorem translate_ne_ok (k : ErrKind) : translate k ≠ .ok := by cases k <;> decide

/-! The splitter's loop. -/

theorem loopTest_next {s : State} (h : s.cur < s.endAddr) :
    s.loopTest = { s with chunk := min s.rem (s.endAddr - s.cur), pc := ⟨.en, .sel⟩ } := by
  simp [State.loopTest, h]

theorem loopTest_end {s : State} (h : ¬s.cur < s.endAddr) : s.loopTest = s.complete := by
  simp [State.loopTest, h]

/-! The transaction. -/

theorem txnStep_sel {s : State} (hs : s.pc.stage.hasTxn = true) (hb : s.pc.sub = .sel) (f : List Byte) (n : Option Nat) :
    txnStep f n s = .next s.select := by
  simp [txnStep, hs, hb]

theorem txnStep_tx {s : State} (hs : s.pc.stage.hasTxn = true) (hb : s.pc.sub = .tx) (f : List Byte) (n : Option Nat) :
    txnStep f n s = .next (s.transmit f n.isSome) := by
  simp [txnStep, hs, hb]

theorem txnStep_rx {s : State} (hs : s.pc.stage.hasTxn = true) (hb : s.pc.sub = .rx) (f : List Byte) (n : Nat) :
    txnStep f (some n) s = .next (s.receive n) := by
  simp [txnStep, hs, hb]

theorem txnStep_desel {s : State} (hs : s.pc.stage.hasTxn = true) (hb : s.pc.sub = .desel) (f : List Byte) (n : Option Nat) :
    txnStep f n s = afterTxn s.deselect := by
  simp [txnStep, hs, hb]

/-- Everything a step of a transaction can do. -/
theorem txnStep_cases {s t : State} {f : List Byte} {n : Option Nat} (h : txnStep f n s = .next t) :
    s.pc.stage.hasTxn = true ∧
      ((s.pc.sub = .sel ∧ t = s.select) ∨ (s.pc.sub = .tx ∧ t = s.transmit f n.isSome) ∨
        (∃ m, n = some m ∧ s.pc.sub = .rx ∧ t = s.receive m) ∨ (s.pc.sub = .desel ∧ afterTxn s.deselect = .next t)) := by
  unfold txnStep at h
  split at h
  · next hs =>
    refine ⟨hs, ?_⟩
    split at h
    · next hb => cases h; exact .inl ⟨hb, rfl⟩
    · next hb => cases h; exact .inr (.inl ⟨hb, rfl⟩)
    · next hb =>
      split at h
      · next m => cases h; exact .inr (.inr (.inl ⟨m, rfl, hb, rfl⟩))
      · cases h
    · next hb => exact .inr (.inr (.inr ⟨hb, h⟩))
    · cases h
  · cases h

/-- Everything that can follow the Deselect of a transaction. -/
theorem afterTxn_cases {s t : State} (h : afterTxn s = .next t) :
    (s.pending ≠ .ok ∧ t = s.raise s.pending) ∨
    (s.pending = .ok ∧
      ((s.pc.stage = .en ∧ t = s.goto .mut .sel) ∨ (s.pc.stage = .mut ∧ t = s.goto .dly .dash) ∨
        (s.pc.stage = .xfer ∧ s.op = .reset ∧ t = s.goto .dly .dash) ∨
        (s.pc.stage = .xfer ∧ s.op = .readId ∧ t = s.endReadId) ∨
        (s.pc.stage = .xfer ∧ (s.op = .read ∨ s.op = .fastRead) ∧ t = s.endRead) ∨
        (s.pc.stage = .dis ∧ (s.op = .eraseSector ∨ s.op = .eraseChip) ∧ t = s.complete) ∨
        (s.pc.stage = .dis ∧ s.op = .write ∧ t = s.advance.loopTest))) := by
  unfold afterTxn at h
  split at h
  · next hp => cases h; exact .inl ⟨hp, rfl⟩
  · next hp =>
    refine .inr ⟨by simpa using hp, ?_⟩
    split at h
    · next hs => cases h; simp [hs]
    · next hs => cases h; simp [hs]
    · next hs =>
      unfold afterXfer at h
      split at h <;> first | (next ho => cases h; simp [hs, ho]) | cases h
    · next hs =>
      unfold afterDisable at h
      split at h <;> first | (next ho => cases h; simp [hs, ho]) | cases h
    · cases h

/-! The other steps of an operation. -/

/-- Everything a delay can do. -/
theorem delayStep_cases {s t : State} (h : delayStep s = .next t) :
    ∃ d, delayOf s.op = some d ∧
      ((s.op = .reset ∧ t = (s.delay d).complete) ∨ (s.op ≠ .reset ∧ t = (s.delay d).goto .dis .sel)) := by
  unfold delayStep at h
  split at h
  · cases h
  · next d hd =>
    cases h
    refine ⟨d, hd, ?_⟩
    split <;> simp_all

/-- A command is taken only as `10_state.md` R23 says. -/
theorem accept_cases {s t : State} {o : Op} (h : accept o s = .next t) :
    s.busy = false ∧ (s.bound = true ↔ o ≠ .init) ∧ t = s.accepted o := by
  unfold accept at h
  split at h
  · cases h
  · next hb =>
    split at h
    · next ho =>
      split at h
      · cases h
      · cases h; simp_all
    · split at h
      · cases h; simp_all
      · cases h

/-- A command is accepted when `10_state.md` R23 says so. -/
theorem accept_next {s : State} {o : Op} (hb : s.busy = false) (ho : s.bound = true ↔ o ≠ .init) :
    accept o s = .next (s.accepted o) := by
  unfold accept
  by_cases h : o = .init <;> simp_all

/-- Everything a step of a host operation can do. -/
theorem hostOp_cases {s t : State} {o : Op} {c : State → Res} (h : hostOp o c s = .next t) :
    (s.pc.stage = .idle ∧ accept o s = .next t) ∨
    (s.op = o ∧ ((s.pc.stage = .chk ∧ c s = .next t) ∨ (s.pc.stage = .dly ∧ delayStep s = .next t) ∨
      (s.pc.stage = .fin ∧ t = s.finish) ∨ (s.pc.stage.hasTxn = true ∧ wireStep s = .next t))) := by
  unfold hostOp at h
  split at h
  · next hs => exact .inl ⟨hs, h⟩
  · next hs =>
    split at h
    · cases h
    · next ho =>
      refine .inr ⟨by simpa using ho, ?_⟩
      split at h <;> simp_all [Stage.hasTxn]

/-- Everything the check of a read can do. -/
theorem checkRead_cases {s t : State} (h : checkRead s = .next t) :
    (s.rangeOk = true ∧ s.len ≤ s.dst.length ∧ t = { s with base := s.start }.goto .xfer .sel) ∨
      (s.rangeOk = false ∧ t = s.raise .outOfRange) := by
  unfold checkRead at h
  split at h
  · split at h
    · cases h; simp_all
    · cases h
  · cases h; simp_all

/-- Everything the check of a sector erase can do. -/
theorem checkEraseSector_cases {s t : State} (h : checkEraseSector s = .next t) :
    (s.sectorOk = true ∧ t = { s with base := s.sectorStart }.goto .en .sel) ∨ (s.sectorOk = false ∧ t = s.raise .outOfRange) := by
  unfold checkEraseSector at h
  split at h <;> cases h <;> simp_all

/-- Everything the check of a write can do. -/
theorem checkWrite_cases {s t : State} (h : checkWrite s = .next t) :
    (s.rangeOk = true ∧ s.len ≤ s.src.length ∧ t = s.startWrite.loopTest) ∨
      (s.rangeOk = false ∧ t = s.raise .outOfRange) := by
  unfold checkWrite at h
  split at h
  · split at h
    · cases h; simp_all
    · cases h
  · cases h; simp_all

/-! Wire instructions. -/

/-- A wire instruction whose address exists is the transaction of its frame. -/
theorem execWire_eq {i : Instr} (hw : i.isWire = true) {s : State} (hf : i.fits s.cfg = true) :
    execWire i s = txnStep (frameBytes i) (s.respLen i) s := by
  cases i <;> simp_all [Instr.isWire, encode, Instr.fits, execWire, execWren, execWrdi, execRsten, execRst, execRdid, execRead,
    execFread, execPp, execSe, execCe, State.respLen]

end Sys2Proof.Machine
end

