-- ==== Sys2Proof/Laws/PerInstr.lean ====
section
/-! SUPPORT. Statements about every instruction as syntax, one lemma a constructor: the decoder takes back what the encoder gives. -/

namespace Sys2Proof.Laws

/-- The address of an address's three bytes. -/
theorem addrOfBytes_addrBytes (a : Addr) : addrOfBytes (lo8 (a.toNat / 65536)) (lo8 (a.toNat / 256)) (lo8 a.toNat) = a := by
  apply BitVec.eq_of_toNat_eq
  have := a.isLt
  simp only [addrOfBytes, addrValue, lo8, BitVec.toNat_ofNat]
  omega

namespace RoundTrip

/-- Decoding the encoding of a well-formed instruction gives the instruction, at its place in the window. -/
def Statement (i : Instr) : Prop := i.wf = true → (decode (encode i)).at (windowIndex i) = some i

theorem wren : Statement .wren := fun _ => by decide
theorem wrdi : Statement .wrdi := fun _ => by decide
theorem rsten : Statement .rsten := fun _ => by decide
theorem rst : Statement .rst := fun _ => by decide
theorem rdid : Statement .rdid := fun _ => by decide

theorem read (addr : Addr) : Statement (.read addr) := fun _ => by
  show Decoded.at (.instrs [.read (addrOfBytes _ _ _)]) 0 = _
  rw [addrOfBytes_addrBytes]; rfl

theorem fread (addr : Addr) (dummy : Byte) : Statement (.fread addr dummy) := fun _ => by
  show Decoded.at (.instrs [.fread (addrOfBytes _ _ _) dummy]) 0 = _
  rw [addrOfBytes_addrBytes]; rfl

theorem pp (addr : Addr) (payload : List Byte) : Statement (.pp addr payload) := fun h => by
  simp only [Instr.wf, Bool.and_eq_true, decide_eq_true_eq] at h
  have : decodeProgram (addrBytes addr.toNat ++ payload) = .instrs [.pp addr payload] := by
    simp only [addrBytes, List.cons_append, List.nil_append, decodeProgram, addrOfBytes_addrBytes]
    rw [if_pos ⟨h.1.1, h.1.2⟩]
  show Decoded.at (decodeProgram (addrBytes addr.toNat ++ payload)) 0 = _
  rw [this]; rfl

theorem se (addr : Addr) : Statement (.se addr) := fun _ => by
  show Decoded.at (.instrs [.se (addrOfBytes _ _ _)]) 0 = _
  rw [addrOfBytes_addrBytes]; rfl

theorem ce : Statement .ce := fun _ => by decide
theorem opReset : Statement .opReset := fun _ => by decide
theorem opReadId : Statement .opReadId := fun _ => by decide
theorem opRead : Statement .opRead := fun _ => by decide
theorem opFastRead : Statement .opFastRead := fun _ => by decide
theorem opEraseSector : Statement .opEraseSector := fun _ => by decide
theorem opEraseChip : Statement .opEraseChip := fun _ => by decide
theorem opWrite : Statement .opWrite := fun _ => by decide
theorem opInit : Statement .opInit := fun _ => by decide

end RoundTrip

end Sys2Proof.Laws
end

