-- ==== Sys2Proof/Laws/Step.lean ====
section
/-! SUPPORT. What `exec` and `step` can do, said once. -/

namespace Sys2Proof.Machine

/-- On a wire instruction `exec` is the wire meaning that an operation's stages run. -/
theorem exec_of_isWire {i : Instr} (hw : i.isWire = true) (s : State) : exec i s = execWire i s := by
  cases i <;> first | rfl | simp [Instr.isWire, encode] at hw

/-- A wire instruction whose address exists is the transaction of its frame. -/
theorem exec_wire {i : Instr} (hw : i.isWire = true) {s : State} (hf : i.fits s.cfg = true) :
    exec i s = txnStep (frameBytes i) (s.respLen i) s := by
  rw [exec_of_isWire hw, execWire_eq hw hf]

/-- The check of an operation's stage `CHK`. -/
def opCheck : Op → State → Res
  | .reset => checkPlain
  | .readId => checkPlain
  | .read => checkRead
  | .fastRead => checkRead
  | .eraseSector => checkEraseSector
  | .eraseChip => checkEraseChip
  | .write => checkWrite
  | .init => checkInit

/-- On a host operation `exec` is the operation's step. -/
theorem exec_op (o : Op) (s : State) : exec o.toInstr s = hostOp o (opCheck o) s := by cases o <;> rfl

/-- Everything `exec` can do: a step of a transaction, or a step of a host operation. -/
theorem exec_cases {i : Instr} {s t : State} (h : exec i s = .next t) :
    (i.isWire = true ∧ i.fits s.cfg = true ∧ txnStep (frameBytes i) (s.respLen i) s = .next t) ∨
      ∃ o, i = o.toInstr ∧ hostOp o (opCheck o) s = .next t := by
  cases i with
  | wren => exact .inl ⟨rfl, rfl, h⟩
  | wrdi => exact .inl ⟨rfl, rfl, h⟩
  | rsten => exact .inl ⟨rfl, rfl, h⟩
  | rst => exact .inl ⟨rfl, rfl, h⟩
  | rdid => exact .inl ⟨rfl, rfl, h⟩
  | read a => exact .inl ⟨rfl, rfl, h⟩
  | fread a d => exact .inl ⟨rfl, rfl, h⟩
  | pp a d =>
    simp only [exec, execPp] at h
    split at h
    · next ha => exact .inl ⟨rfl, by simpa [Instr.fits] using ha, h⟩
    · cases h
  | se a =>
    simp only [exec, execSe] at h
    split at h
    · next ha => exact .inl ⟨rfl, by simpa [Instr.fits] using ha, h⟩
    · cases h
  | ce => exact .inl ⟨rfl, rfl, h⟩
  | opReset => exact .inr ⟨.reset, rfl, h⟩
  | opReadId => exact .inr ⟨.readId, rfl, h⟩
  | opRead => exact .inr ⟨.read, rfl, h⟩
  | opFastRead => exact .inr ⟨.fastRead, rfl, h⟩
  | opEraseSector => exact .inr ⟨.eraseSector, rfl, h⟩
  | opEraseChip => exact .inr ⟨.eraseChip, rfl, h⟩
  | opWrite => exact .inr ⟨.write, rfl, h⟩
  | opInit => exact .inr ⟨.init, rfl, h⟩

/-- The wire instruction of a sequence position is one. -/
theorem wireInstr_isWire {s : State} {i : Instr} (h : s.wireInstr = some i) : i.isWire = true := by
  have key : ∀ (f : List Byte) (is : List Instr), decodeFrame f = .instrs is → ∀ i ∈ is, i.isWire = true := by
    intro f is hd
    unfold decodeFrame at hd
    repeat' split at hd
    all_goals first
      | cases hd
      | (simp only [decodeBare, decodeAddressed, decodeFastRead, decodeProgram, decodeReset] at hd
         repeat' split at hd
         all_goals first
           | (cases hd; simp [Instr.isWire, encode])
           | cases hd)
  unfold State.wireInstr at h
  split at h
  · cases h
  · split at h
    · next is hd => exact key _ is hd i (List.mem_of_getElem? h)
    · cases h

/-- In a transaction stage, a step of the operation is a step of the wire instruction at the position. -/
theorem wireStep_eq {s : State} {i : Instr} (h : s.wireInstr = some i) : wireStep s = exec i s := by
  rw [exec_of_isWire (wireInstr_isWire h)]
  simp [wireStep, h]

/-- Everything the machine's step can do: wait, take a host write, or run an instruction. -/
theorem step_cases {s t : State} (h : step s = .next t) :
    (s.pc.stage = .idle ∧ s.port = [] ∧ t = s) ∨
    (∃ a rest, s.pc.stage = .idle ∧ s.port = a :: rest ∧ s.busy = false ∧ (∀ w, a.act ≠ .writeCmd w) ∧ t = hostWrite a.act s.popPort) ∨
    (∃ a rest w, s.pc.stage = .idle ∧ s.port = a :: rest ∧ a.act = .writeCmd w ∧
      exec (decodeCmd (s.cfg.hold w)).toInstr { s.popPort with cmd := s.cfg.hold w } = .next t) ∨
    (∃ i, s.pc.stage ≠ .idle ∧ s.intrusion = none ∧ s.instrAt = some i ∧ exec i s = .next t) := by
  unfold step State.plan at h
  by_cases hs : s.pc.stage = .idle
  · rw [if_pos hs] at h
    cases hq : s.port with
    | nil =>
      simp only [State.planIdle, hq] at h
      cases h; exact .inl ⟨hs, rfl, rfl⟩
    | cons a rest =>
      by_cases hw : ∃ w, a.act = .writeCmd w
      · obtain ⟨w, hw⟩ := hw
        simp only [State.planIdle, hq, hw] at h
        exact .inr (.inr (.inl ⟨a, rest, w, hs, rfl, hw, h⟩))
      · have hw' : ∀ w, a.act ≠ .writeCmd w := fun w e => hw ⟨w, e⟩
        have hplan : s.planIdle = if s.busy then .refuse (refusalOf a.act) else .write (hostWrite a.act s.popPort) := by
          simp only [State.planIdle, hq]
        rw [hplan] at h
        cases hb : s.busy with
        | false =>
          simp only [hb, Bool.false_eq_true, if_false] at h
          cases h; exact .inr (.inl ⟨a, rest, hs, rfl, rfl, hw', rfl⟩)
        | true =>
          simp only [hb, if_true] at h
          cases h
  · rw [if_neg hs] at h
    unfold State.planRunning at h
    cases hq : s.intrusion with
    | some act => simp only [hq] at h; cases h
    | none =>
      simp only [hq] at h
      cases hi : s.instrAt with
      | none => simp only [hi] at h; cases h
      | some i => simp only [hi] at h; exact .inr (.inr (.inr ⟨i, hs, rfl, rfl, h⟩))

end Sys2Proof.Machine
end

