-- ==== Sys2Proof/Tests/Slice0.lean ====
section
/-! SUPPORT. Tests: the checks of WellFormed, words written out from the spec, single steps with the spec's own examples, and for every
obligation with hypotheses a state that meets them. -/

namespace Sys2Proof.Tests

open Sys2Proof Sys2Proof.Machine

/-! WellFormed, smoke. -/

theorem test_wf_refuses_empty_payload : (Instr.pp 0x000000 []).wf = false := by decide

theorem test_wf_refuses_page_crossing : (Instr.pp 0x0000FF [0x01, 0x02]).wf = false := by decide

theorem test_wf_refuses_long_payload (d : List Byte) (h : d.length = 257) : (Instr.pp 0x000000 d).wf = false := by
  simp [Instr.wf, h]

theorem test_wf_refuses_unaligned_sector : (Instr.se 0x001001).wf = false := by decide

theorem test_wf_takes_a_full_page (d : List Byte) (h : d.length = 256) : (Instr.pp 0xFFFF00 d).wf = true := by
  simp [Instr.wf, h]

theorem test_wf_takes_the_last_sector : (Instr.se 0xFFF000).wf = true := by decide

theorem test_fits_refuses_beyond_the_array : (Instr.se 0x001000).fits { Params.default with totalSectors := 1 } = false := by decide

/-! Decoding: bits written out from `30_encoding.md` R71, R78, R80. -/

theorem test_decode_wren : decodeFrame [0b00000110] = .instrs [.wren] := by decide

theorem test_decode_wrdi : decodeFrame [0b00000100] = .instrs [.wrdi] := by decide

theorem test_decode_reset_pair : decodeFrame [0b01100110, 0b10011001] = .instrs [.rsten, .rst] := by decide

theorem test_decode_rdid : decodeFrame [0b10011111] = .instrs [.rdid] := by decide

theorem test_decode_read : decodeFrame [0b00000011, 0b00010010, 0b00110100, 0b01010110] = .instrs [.read 0x123456] := by decide

theorem test_decode_fread :
    decodeFrame [0b00001011, 0b00000000, 0b00000001, 0b00001010, 0b00000000] = .instrs [.fread 0x00010A 0x00] := by decide

theorem test_decode_pp :
    decodeFrame [0b00000010, 0b00000000, 0b00000000, 0b11111110, 0b00010001, 0b00100010] = .instrs [.pp 0x0000FE [0x11, 0x22]] := by
  decide

theorem test_decode_se : decodeFrame [0b00100000, 0b00000000, 0b01010000, 0b00000000] = .instrs [.se 0x005000] := by decide

theorem test_decode_ce : decodeFrame [0b11000111] = .instrs [.ce] := by decide

theorem test_decode_commands :
    [0b000, 0b001, 0b010, 0b011, 0b100, 0b101, 0b110, 0b111].map (fun w : Nat => (decode (.cmd w)).at 0) =
      [some .opReset, some .opReadId, some .opRead, some .opFastRead, some .opEraseSector, some .opEraseChip, some .opWrite,
        some .opInit] := by decide

theorem test_decode_command_ignores_reserved_bits : decodeCmd 0b11111111111111111111111111111110 = .write := by decide

theorem test_decode_rejects_lone_rst : decodeFrame [0x99] = .reject (.unknownOpcode 0x99) := by decide

theorem test_decode_rejects_short_read : decodeFrame [0x03, 0x00, 0x00] = .reject (.badLength 0x03 3) := by decide

theorem test_decode_rejects_empty_window : decodeFrame [] = .reject .emptyWindow := by decide

theorem test_decode_rejects_split_reset : decodeFrame [0x66, 0x66] = .reject (.badResetPair 0x66) := by decide

/-! Table words. -/

theorem test_table_word_of_read : decodeTableWord 32 0x56341203 = some (.read 0x123456) := by decide

theorem test_table_word_of_rst : decodeTableWord 16 0x0099 = some .rst ∧ decodeTableWord 16 0x9966 = some .rsten := by decide

theorem test_table_word_of_command : decodeTableWord 32 0x00000006 = some .opWrite := by decide

/-! One step. -/

/-- Whether an outcome is a next state with a property. -/
def nextWith (r : Res) (p : State → Bool) : Bool :=
  match r with
  | .next t => p t
  | .fault _ => false
  | .refused _ => false

theorem exists_next {r : Res} (h : nextWith r (fun _ => true) = true) : ∃ t, r = .next t := by
  cases r with
  | next t => exact ⟨t, rfl⟩
  | fault f => cases h
  | refused f => cases h

/-- An initialised idle machine. -/
def idle : State := { State.reset with bound := true }

/-- A machine that runs `op` at a position. -/
def at' (op : Op) (stage : Stage) (sub : Sub) : State := State.reset.placed op stage sub

/-- The command `w` given to a machine. -/
def given (s : State) (w : Nat) : State := { s with port := [⟨true, .writeCmd w⟩] }

/-- A device that holds `cells`. -/
def holding (cells : List Host.Cell) (win : List Byte) : Device := { Device.powerUp with flash := ⟨cells, []⟩, win := win }

-- `40_wire_instructions.md` R91.
theorem test_wren_transmits :
    nextWith (exec .wren (at' .write .en .tx)) (fun t => decide (t.trace = [.tx [0x06] .ok] ∧ t.pc = ⟨.en, .desel⟩)) = true := by
  decide

theorem test_wren_sets_the_latch :
    nextWith (exec .wren { at' .write .en .desel with dev := holding [] [0x06] })
      (fun t => decide (t.dev.wel = true ∧ t.pc = ⟨.mut, .sel⟩ ∧ t.trace = [.desel])) = true := by decide

-- `40_wire_instructions.md` R92.
theorem test_wrdi_transmits :
    nextWith (exec .wrdi (at' .eraseChip .dis .tx)) (fun t => decide (t.trace = [.tx [0x04] .ok] ∧ t.pc = ⟨.dis, .desel⟩)) = true := by
  decide

-- `42_page_write.md` R115, the second chunk of write(0, 254, 4): at 256, two bytes.
theorem test_wrdi_advances_the_write :
    nextWith (exec .wrdi { at' .write .dis .desel with base := 254, cur := 254, endAddr := 258, rem := 2, chunk := 2 })
      (fun t => decide (t.cur = 256 ∧ t.chunk = 2 ∧ t.rem = 256 ∧ t.pc = ⟨.en, .sel⟩)) = true := by decide

-- `40_wire_instructions.md` R93, R94: both bytes in one frame.
theorem test_rsten_opens_the_window :
    nextWith (exec .rsten (at' .reset .xfer .sel)) (fun t => decide (t.trace = [.sel] ∧ t.selected = true)) = true := by decide

theorem test_rst_transmits_both_bytes :
    nextWith (exec .rst (at' .reset .xfer .tx)) (fun t => decide (t.trace = [.tx [0x66, 0x99] .ok] ∧ t.pc = ⟨.xfer, .desel⟩)) = true := by
  decide

-- `43_facade_ops.md` R127: `EF 40 18`.
theorem test_rdid_receives_three :
    nextWith (exec .rdid { at' .readId .xfer .rx with dev := holding [] [0x9F] })
      (fun t => decide (t.trace = [.rx 3 (.ok [0xEF, 0x40, 0x18])])) = true := by decide

theorem test_rdid_all_zero_is_no_response :
    nextWith (exec .rdid { at' .readId .xfer .desel with resp := [0x00, 0x00, 0x00] })
      (fun t => decide (t.pending = .noResponse ∧ t.pc = ⟨.fin, .dash⟩)) = true := by decide

-- `43_facade_ops.md` R128: the device's byte at 0x00010A.
theorem test_read_receives_the_array :
    nextWith (exec (.read 0x00010A) { at' .read .xfer .rx with len := 2, dev := holding [(0x10A, 0x5A)] [0x03, 0x00, 0x01, 0x0A] })
      (fun t => decide (t.trace = [.rx 2 (.ok [0x5A, 0xFF])])) = true := by decide

theorem test_read_fills_the_destination :
    nextWith (exec (.read 0x00010A) { at' .read .xfer .desel with len := 2, resp := [0x5A, 0xFF], dst := [0x01, 0x02, 0x03] })
      (fun t => decide (t.dst = [0x5A, 0xFF, 0x03] ∧ t.pc = ⟨.fin, .dash⟩)) = true := by decide

-- `43_facade_ops.md` R129.
theorem test_fread_transmits_its_dummy :
    nextWith (exec (.fread 0x00010A 0x00) (at' .fastRead .xfer .tx))
      (fun t => decide (t.trace = [.tx [0x0B, 0x00, 0x01, 0x0A, 0x00] .ok] ∧ t.pc = ⟨.xfer, .rx⟩)) = true := by decide

-- `20_memory.md` R62: 0xF0 AND 0x3C is 0x30, and the latch falls.
theorem test_pp_ands :
    nextWith (exec (.pp 0x000005 [0x3C]) { at' .write .mut .desel with
                                            dev := { holding [(5, 0xF0)] [0x02, 0x00, 0x00, 0x05, 0x3C] with wel := true } })
      (fun t => decide (t.dev.flash.cells = [(5, 0x30)] ∧ t.dev.wel = false ∧ t.pc = ⟨.dly, .dash⟩)) = true := by decide

-- `41_write_gate.md` R107: a failed mutation goes to the Deselect, and no delay comes.
theorem test_pp_fails :
    nextWith (exec (.pp 0x0000FE [0x11, 0x22]) { at' .write .mut .tx with answers := [.err .fail] })
      (fun t => decide (t.trace = [.tx [0x02, 0x00, 0x00, 0xFE, 0x11, 0x22] (.err .fail)] ∧ t.pending = .transportError ∧
        t.pc = ⟨.mut, .desel⟩)) = true := by decide

-- `43_facade_ops.md` R130: sector 5 is at 0x005000.
theorem test_se_transmits :
    nextWith (exec (.se 0x005000) (at' .eraseSector .mut .tx)) (fun t => decide (t.trace = [.tx [0x20, 0x00, 0x50, 0x00] .ok])) = true := by
  decide

theorem test_se_erases_its_sector :
    nextWith (exec (.se 0x001000) { at' .eraseSector .mut .desel with
                                      dev := { holding [(4095, 1), (4096, 2), (8191, 3), (8192, 4)] [0x20, 0x00, 0x10, 0x00] with
                                               wel := true } })
      (fun t => decide (t.dev.flash.cells = [(4095, 1), (8192, 4)])) = true := by decide

theorem test_ce_erases_everything :
    nextWith (exec .ce { at' .eraseChip .mut .desel with dev := { holding [(0, 1), (16777215, 2)] [0xC7] with wel := true } })
      (fun t => decide (t.dev.flash.cells = [] ∧ t.dev.wel = false)) = true := by decide

theorem test_ce_needs_the_latch :
    nextWith (exec .ce { at' .eraseChip .mut .desel with dev := holding [(0, 1)] [0xC7] })
      (fun t => decide (t.dev.flash.cells = [(0, 1)])) = true := by decide

-- The host operations: acceptance and the step of their own.
theorem test_reset_is_accepted :
    nextWith (step (given idle 0)) (fun t => decide (t.op = .reset ∧ t.pc = ⟨.chk, .dash⟩ ∧ t.busy = true)) = true := by decide

theorem test_reset_waits :
    nextWith (step (at' .reset .dly .dash)) (fun t => decide (t.trace = [.dly .tRst] ∧ t.pc = ⟨.fin, .dash⟩)) = true := by decide

theorem test_read_id_is_accepted :
    nextWith (step (given idle 1)) (fun t => decide (t.op = .readId ∧ t.pc = ⟨.chk, .dash⟩)) = true := by decide

theorem test_read_id_returns :
    nextWith (step { at' .readId .fin .dash with pending := .noResponse })
      (fun t => decide (t.result = .noResponse ∧ t.done = true ∧ t.busy = false ∧ t.pc = ⟨.idle, .dash⟩)) = true := by decide

-- `43_facade_ops.md` R128: read(1, 10, 4) is at 266; the exclusive end may be `TOTAL_BYTES`.
theorem test_read_computes_its_address :
    nextWith (exec .opRead { at' .read .chk .dash with page := 1, offs := 10, len := 4, dst := [0, 0, 0, 0] })
      (fun t => decide (t.base = 266 ∧ t.pc = ⟨.xfer, .sel⟩)) = true := by decide

theorem test_read_at_the_end_is_in_range :
    nextWith (exec .opRead { at' .read .chk .dash with page := 65536 }) (fun t => decide (t.pending = .ok ∧ t.pc = ⟨.xfer, .sel⟩)) = true := by
  decide

theorem test_fast_read_beyond_the_end :
    nextWith (exec .opFastRead { at' .fastRead .chk .dash with page := 65535, offs := 255, len := 2 })
      (fun t => decide (t.pending = .outOfRange ∧ t.trace = [] ∧ t.pc = ⟨.fin, .dash⟩)) = true := by decide

theorem test_erase_sector_refuses_the_index_after_the_last :
    nextWith (exec .opEraseSector { at' .eraseSector .chk .dash with sect := 4096 })
      (fun t => decide (t.pending = .outOfRange ∧ t.trace = [])) = true := by decide

theorem test_erase_sector_takes_the_last :
    nextWith (exec .opEraseSector { at' .eraseSector .chk .dash with sect := 4095 })
      (fun t => decide (t.base = 0xFFF000 ∧ t.pc = ⟨.en, .sel⟩)) = true := by decide

theorem test_erase_chip_waits :
    nextWith (exec .opEraseChip (at' .eraseChip .dly .dash)) (fun t => decide (t.trace = [.dly .tCe] ∧ t.pc = ⟨.dis, .sel⟩)) = true := by
  decide

-- `42_page_write.md` R112, R113: write(0, 254, 4) begins with two bytes.
theorem test_write_begins_with_the_rest_of_the_page :
    nextWith (exec .opWrite { at' .write .chk .dash with offs := 254, len := 4, src := [1, 2, 3, 4] })
      (fun t => decide (t.base = 254 ∧ t.cur = 254 ∧ t.endAddr = 258 ∧ t.rem = 2 ∧ t.chunk = 2 ∧ t.pc = ⟨.en, .sel⟩)) = true := by decide

theorem test_write_of_nothing_ends :
    nextWith (exec .opWrite (at' .write .chk .dash)) (fun t => decide (t.pending = .ok ∧ t.pc = ⟨.fin, .dash⟩ ∧ t.trace = [])) = true := by
  decide

theorem test_init_binds :
    nextWith (exec .opInit { at' .init .chk .dash with bound := false, pinIn := 7 })
      (fun t => decide (t.bound = true ∧ t.pinmap = 7 ∧ t.trace = [])) = true := by decide

theorem test_init_is_accepted :
    nextWith (step (given State.reset 7)) (fun t => decide (t.op = .init ∧ t.pc = ⟨.chk, .dash⟩)) = true := by decide

-- `60_exceptions.md` R157, `20_memory.md` R60: a reset takes time, which the next delay is for.
theorem test_reset_frame_keeps_a_stricter_stub_busy :
    nextWith (exec .rst { at' .reset .xfer .desel with dev := { holding [(0, 1)] [0x66, 0x99] with kind := .strictStub, wel := true } })
      (fun t => decide (t.dev.busy = true ∧ t.dev.wel = false ∧ t.dev.flash.cells = [(0, 1)])) = true := by decide

-- `70_reset_and_hazards.md` R188: the line is still asserted after a failed chip erase, and the next Select begins no clean window.
theorem test_select_after_an_unreleased_failure :
    nextWith (exec .wren { at' .eraseChip .en .sel with dev := { holding [] [0xC7] with kind := .general, torn := true } })
      (fun t => decide (t.dev.stale = [[0xC7]] ∧ t.dev.win = [] ∧ t.dev.meant [0x06] = .chip)) = true := by decide

-- `10_state.md` R22: an operand register has `OPW` bits.
theorem test_operand_keeps_its_width :
    nextWith (step { idle with port := [⟨true, .setPage 0x1FFFFFFFF⟩] }) (fun t => decide (t.page = 0xFFFFFFFF)) = true := by decide

-- Taking a table word: the next step runs it.
theorem test_placed_word_runs :
    nextWith (step (State.reset.withFetchWord 32 0x00005020)) (fun t => decide (t.trace = [.sel] ∧ t.pc = ⟨.mut, .tx⟩)) = true ∧
      nextWith (step (State.reset.withFetchWord 32 5)) (fun t => decide (t.op = .eraseChip ∧ t.pc = ⟨.chk, .dash⟩)) = true := by decide

/-! Witnesses: for every obligation with hypotheses, a state and operands that meet them together, at the boundary values of its clauses. -/

theorem witness_DecodeTakesBackEveryEncoding :
    (Instr.pp 0xFFFFFF [0x00]).wf = true ∧ (Instr.se 0xFFF000).wf = true ∧ (Instr.fread 0xFFFFFF 0xFF).wf = true := by decide

theorem witness_EveryDecodedFrameEncodesBack :
    decodeFrame [0x66, 0x99] = .instrs [.rsten, .rst] ∧ decodeFrame [0x20, 0xFF, 0xFF, 0xFF] = .instrs [.se 0xFFFFFF] := by decide

theorem witness_OtherFirstBytesAreInvalid : (0x99 : Byte) ∉ firstBytes ∧ (0x00 : Byte) ∉ firstBytes ∧ (0xFF : Byte) ∉ firstBytes := by
  decide

theorem witness_AddressBytesMostSignificantFirst : 0 < 2 ^ 24 ∧ 2 ^ 24 - 1 < 2 ^ 24 := by decide

theorem witness_CommandWordNamesItsOperation : 0xFFFFFFF8 % 8 = 0 % 8 ∧ { Params.default with opw := 3 }.wf := by decide

theorem witness_StepRunsTheInstructionAtThePosition :
    ((at' .eraseChip .mut .tx).pc.stage ≠ .idle ∧ (at' .eraseChip .mut .tx).intrusion = none ∧
      (at' .eraseChip .mut .tx).instrAt = some .ce) ∧
    (at' .write .chk .dash).pc.stage ∈ [Stage.chk, .dly, .fin] ∧
    ((at' .eraseChip .mut .tx).pc.stage.hasTxn = true ∧ (at' .eraseChip .mut .tx).frame = some [0xC7] ∧
      decodeFrame [0xC7] = .instrs [.ce]) ∧
    ((at' .reset .xfer .sel).pc.stage = .xfer ∧ (at' .reset .xfer .sel).op = .reset) ∧
    ((given idle 7).pc.stage = .idle ∧ (given idle 7).port = [⟨true, .writeCmd 7⟩]) ∧
    (idle.pc.stage = .idle ∧ idle.port = []) := by decide

theorem witness_StepMakesAtMostOnePortCall : ∃ t, step (at' .eraseChip .mut .tx) = .next t := exists_next (by decide)

theorem witness_OperationStepIsItsWireInstructionsStep :
    (at' .reset .xfer .tx).pc.stage.hasTxn = true ∧ (at' .reset .xfer .tx).instrAt = some .rst := by decide

theorem witness_RunOfACommandFollowsItsInstruction :
    (given idle 5).pc.stage = .idle ∧ (given idle 5).port = [⟨true, .writeCmd 5⟩] ∧
      (∀ a ∈ ([] : List HostAction).head?, a.waits = true) ∧
      ∀ j u, 0 < j → j ≤ 1 →
        iterate (decodeCmd (idle.cfg.hold 5)).toInstr j { given idle 5 with port := [], cmd := idle.cfg.hold 5 } = .next u →
          u.pc.stage ≠ .idle := by
  refine ⟨rfl, rfl, by simp, ?_⟩
  intro j u h0 h1 h
  obtain rfl : j = 1 := by omega
  cases h
  decide

theorem witness_CommandIsAccepted :
    idle.pc.stage = .idle ∧ idle.busy = false ∧ (idle.bound = true ∧ Op.write ≠ .init) ∧
      (State.reset.bound = false ∧ State.reset.busy = false) := by decide

theorem witness_UnacceptedCommandIsRefused :
    (({ idle with busy := true } : State).pc.stage = .idle ∧ ({ idle with busy := true } : State).busy = true) ∧
    ((at' .write .fin .dash).pc.stage ≠ .idle ∧ (at' .write .fin .dash).op ≠ .init) ∧
    (({ at' .write .chk .dash with port := [⟨false, .writeCmd 6⟩] } : State).port = [⟨false, .writeCmd 6⟩]) ∧
    (State.reset.busy = false ∧ State.reset.bound = false ∧ Op.write ≠ .init) ∧ (idle.busy = false ∧ idle.bound = true) := by decide

theorem witness_HostWritesItsRegisters :
    (∀ a ∈ [HostAct.setPage 0xFFFFFFFF, .setOffs 0x100000000, .setLen 0, .setSect 0xFFFFFFFF, .setPinIn 7, .setSrc [], .setDst [1]],
      let s := { idle with port := [⟨true, a⟩] }
      s.pc.stage = .idle ∧ s.busy = false ∧ s.port = ⟨true, a⟩ :: []) ∧
    (({ at' .read .xfer .rx with port := [⟨false, .setDst []⟩] } : State).pc.stage ≠ .idle ∧
      ∀ w, HostAct.setDst [] ≠ .writeCmd w) := by
  refine ⟨by decide, by decide, ?_⟩
  intro _ h; cases h

theorem witness_OutOfRangeIsRaisedExactlyByTheTable :
    let s := { at' .read .chk .dash with page := 65535, offs := 255, len := 2 }
    (s.pc.stage = .chk ∧ s.pending = .ok ∧ s.page * 256 + s.offs + s.len > s.cfg.totalBytes) ∧
      ¬({ s with len := 1 }.page * 256 + 255 + 1 > s.cfg.totalBytes) ∧
      { at' .eraseSector .chk .dash with sect := 4096 }.sect ≥ Params.default.totalSectors ∧
      ¬({ at' .eraseSector .chk .dash with sect := 4095 }.sect ≥ Params.default.totalSectors) ∧
      ∃ t, exec .opRead { s with len := 0 } = .next t :=
  ⟨by decide, by decide, by decide, by decide, exists_next (by decide)⟩

theorem witness_ChecksThatPassGoOn :
    (at' .reset .chk .dash).pc.stage = .chk ∧
      { at' .eraseSector .chk .dash with sect := 4095 }.sect < Params.default.totalSectors ∧
      (let s := { at' .write .chk .dash with page := 65535, offs := 255, len := 1, src := [1], dst := [1] }
       s.page * 256 + s.offs + s.len ≤ s.cfg.totalBytes ∧ s.len ≤ s.src.length ∧ s.len ≤ s.dst.length ∧
        s.len ≠ 0) ∧
      (at' .write .chk .dash).len = 0 := by decide

theorem witness_ShortBufferIsRefused :
    let s := { at' .write .chk .dash with len := 1 }
    s.pc.stage = .chk ∧ s.page * 256 + s.offs + s.len ≤ s.cfg.totalBytes ∧ s.src.length < s.len ∧
      s.dst.length < s.len := by decide

theorem witness_SelectOpensTheWindow :
    (Instr.se 0xFFF000).isWire = true ∧ (Instr.se 0xFFF000).fits State.reset.cfg = true ∧
      (at' .eraseSector .mut .sel).pc.stage.hasTxn = true ∧ (at' .eraseSector .mut .sel).pc.sub = .sel := by decide

theorem witness_TransmitSendsTheFrame :
    let s := { at' .readId .xfer .tx with answers := [.err .busy] }
    Instr.rdid.isWire = true ∧ Instr.rdid.fits s.cfg = true ∧ s.pc.stage.hasTxn = true ∧ s.pc.sub = .tx ∧ s.txAnswer = .err .busy ∧
      s.cfg.deselectOnFail = true ∧ (at' .readId .xfer .tx).txAnswer = .ok ∧
      { s with cfg := { s.cfg with deselectOnFail := false } }.cfg.deselectOnFail = false := by decide

theorem witness_ReceiveTakesTheResponse :
    let s := { at' .read .xfer .rx with answers := [.err .timeout] }
    (Instr.read 0).isWire = true ∧ s.pc.stage.hasTxn = true ∧ s.pc.sub = .rx ∧ s.respLen (.read 0) = some 0 ∧
      s.rxAnswer 0 = .err .timeout ∧ { s with answers := [.data []] }.rxAnswer 0 = .ok [] := by decide

theorem witness_TransportErrorsAreTranslated :
    let s := { at' .readId .xfer .rx with answers := [.err .fail] }
    Instr.rdid.isWire = true ∧ Instr.rdid.fits s.cfg = true ∧ s.pc.stage.hasTxn = true ∧ s.answers = [.err .fail] ∧
      (s.pc.sub = .tx ∨ s.pc.sub = .rx ∧ (s.respLen .rdid).isSome = true) := by decide

theorem witness_FailedTransactionAborts :
    let s := { at' .readId .xfer .desel with pending := .noResponse }
    Instr.rdid.isWire = true ∧ Instr.rdid.fits s.cfg = true ∧ s.pc.stage.hasTxn = true ∧ s.pc.sub = .desel ∧ s.pending ≠ .ok := by decide

theorem witness_WriteEnableIsOneTransaction :
    (at' .write .en .sel).pc = ⟨.en, .sel⟩ ∧ (at' .write .en .sel).pending = .ok ∧ (at' .write .en .sel).txAnswer = .ok := by decide

theorem witness_MutatingInstructionIsOneTransaction :
    (0xFFFFFF : Addr).toNat < (at' .write .mut .sel).cfg.totalBytes ∧ (at' .write .mut .sel).pc = ⟨.mut, .sel⟩ ∧
      (at' .write .mut .sel).pending = .ok ∧ (at' .write .mut .sel).txAnswer = .ok := by decide

theorem witness_WriteDisableIsOneTransaction :
    (at' .eraseChip .dis .sel).op ∈ [Op.eraseSector, .eraseChip] ∧
      (let s := { at' .write .dis .sel with cur := 254, chunk := 2, endAddr := 257 }
       s.pc = ⟨.dis, .sel⟩ ∧ s.pending = .ok ∧ s.txAnswer = .ok ∧ s.cur + s.chunk < s.endAddr ∧
        ¬{ s with endAddr := 256 }.cur + s.chunk < 256) := by decide

theorem witness_ResetFrameIsOneTransaction :
    let s := at' .reset .xfer .sel
    s.pc = ⟨.xfer, .sel⟩ ∧ s.op = .reset ∧ s.pending = .ok ∧ s.txAnswer = .ok := by decide

theorem witness_IdentifyIsOneTransaction :
    let s := { at' .readId .xfer .sel with answers := [.auto, .data [0x00, 0x00, 0x01]] }
    s.pc = ⟨.xfer, .sel⟩ ∧ s.op = .readId ∧ s.pending = .ok ∧ Answer.auto.isErr = false ∧
      s.answers = [.auto, .data [0x00, 0x00, 0x01]] ∧ (0x00 : Byte).toNat * 65536 + (0x00 : Byte).toNat * 256 + (0x01 : Byte).toNat ≠ 0 ∧
      (0x00 : Byte).toNat * 65536 + (0x00 : Byte).toNat * 256 + (0x00 : Byte).toNat = 0 := by decide

theorem witness_ReadingInstructionIsOneTransaction :
    let s := { at' .read .xfer .sel with answers := [.auto, .data [0x5A]], len := 1 }
    s.pc = ⟨.xfer, .sel⟩ ∧ s.op ∈ [Op.read, .fastRead] ∧ s.pending = .ok ∧ s.answers = [.auto, .data [0x5A]] ∧
      ([0x5A] : List Byte).length = s.len ∧ ([] : List Byte).length = { s with len := 0 }.len := by decide

theorem witness_DelayNamesItsParameter :
    (at' .reset .dly .dash).pc.stage = .dly ∧ (at' .reset .dly .dash).op = .reset ∧ (at' .eraseSector .dly .dash).op = .eraseSector ∧
      (at' .eraseChip .dly .dash).op = .eraseChip ∧ (at' .write .dly .dash).op = .write := by decide

theorem witness_FinishWritesTheResult : (at' .write .fin .dash).pc.stage = .fin := by decide

theorem witness_InitBindsTheSession :
    State.reset.pc = ⟨.idle, .dash⟩ ∧ State.reset.busy = false ∧ State.reset.bound = false := by decide

theorem witness_ResetSendsOneFrameAndWaits : idle.ready ∧ idle.txAnswer = .ok := by decide

theorem witness_ReadIdReturnsTheIdentifier :
    let s := { idle with answers := [.auto, .data [0xFF, 0xFF, 0xFF]] }
    s.ready ∧ s.answers = [.auto, .data [0xFF, 0xFF, 0xFF]] ∧
      (0xFF : Byte).toNat * 65536 + (0xFF : Byte).toNat * 256 + (0xFF : Byte).toNat ≠ 0 := by decide

theorem witness_ReadIdWithoutDeviceIsNoResponse :
    let s := { idle with dev := { Device.powerUp with kind := .absent } }
    s.ready ∧ s.answers = [] ∧ s.dev.kind = .absent := by decide

theorem witness_ReadsFillTheDestination :
    let s := { idle with page := 65535, offs := 255, len := 1, dst := [0], answers := [.auto, .data [0x5A]] }
    let z := { idle with page := 65536, answers := [.auto, .data []] }
    (s.ready ∧ s.answers = [.auto, .data [0x5A]] ∧ ([0x5A] : List Byte).length = s.len ∧ s.len ≤ s.dst.length ∧
      s.start + s.len ≤ s.cfg.totalBytes) ∧
    (z.ready ∧ z.answers = [.auto, .data []] ∧ ([] : List Byte).length = z.len ∧ z.len ≤ z.dst.length ∧
      z.start + z.len ≤ z.cfg.totalBytes) := by decide

theorem witness_EraseSectorRunsTheGate :
    let s := { idle with sect := 4095, answers := [.auto, .auto, .auto, .err .fail] }
    s.ready ∧ s.cfg.wf ∧ s.sect < s.cfg.totalSectors ∧ ∀ a ∈ s.answers.take 3, a.isErr = false := by decide

theorem witness_EraseChipRunsTheGate : idle.ready ∧ ∀ a ∈ idle.answers.take 3, a.isErr = false := by decide

theorem witness_WriteSendsItsChunks :
    let s := { idle with page := 65535, offs := 254, len := 2, src := [1, 2] }
    s.ready ∧ s.cfg.wf ∧ s.start + s.len ≤ s.cfg.totalBytes ∧ s.len ≤ s.src.length ∧
      chunkCount s.start s.len = 1 ∧ chunkCount idle.start idle.len = 0 ∧
      ∀ a ∈ s.answers.take 3, a.isErr = false := by decide

/-- A machine whose environment answers `ok` to `m` calls and fails the next, about to write two bytes on two pages. -/
def failing (m : Nat) (deselect : Bool) : State :=
  { idle with
    offs := 255, len := 2, src := [1, 2], sect := 4095, answers := List.replicate m .auto ++ [.err .fail],
    cfg := { Params.default with deselectOnFail := deselect } }

theorem witness_WriteStopsAtItsFirstFailure :
    ∀ m ∈ List.range 6, ∀ deselect ∈ [true, false],
      let s := failing m deselect
      s.ready ∧ s.cfg.wf ∧ s.start + s.len ≤ s.cfg.totalBytes ∧ s.len ≤ s.src.length ∧
        s.answers = List.replicate m .auto ++ .err .fail :: [] ∧ (∀ a ∈ List.replicate m Answer.auto, a.isErr = false) ∧
        (List.replicate m Answer.auto).length < 3 * chunkCount s.start s.len := by decide

theorem witness_EraseStopsAtItsFirstFailure :
    ∀ m ∈ List.range 3, ∀ deselect ∈ [true, false],
      let s := failing m deselect
      s.ready ∧ s.cfg.wf ∧ s.answers = List.replicate m .auto ++ .err .fail :: [] ∧
        (∀ a ∈ List.replicate m Answer.auto, a.isErr = false) ∧ (List.replicate m Answer.auto).length < 3 ∧
        s.sect < s.cfg.totalSectors := by decide

theorem witness_ChunksTileTheRequest : 0 < 3 ∧ 0 + 1 < chunkCount 255 3 ∧ 1 < chunkCount 255 3 := by decide

theorem witness_ChunksStayInTheirPage : 1 < chunkCount 255 3 ∧ 0 < 256 ∧ 0 % 256 + 256 ≤ 256 := by decide

/-- A machine in the first chunk of write(0, 254, 4), about to transmit its `PP` frame. -/
def writing : State :=
  { at' .write .mut .tx with
    offs := 254, len := 4, src := [1, 2, 3, 4], base := 254, cur := 254, endAddr := 258, rem := 2, chunk := 2, selected := true,
    trace := txnTrace [0x06] ++ [.sel] }

theorem writing_inv : Inv writing :=
  ⟨by decide, by decide, by decide, by decide, by decide, by decide, by decide,
    (by intro h; cases h), by decide⟩

theorem witness_EveryStepKeepsTheInvariant : Inv writing ∧ ∃ t, step writing = .next t := ⟨writing_inv, exists_next (by decide)⟩

/-- `writing` with a host that breaks in. -/
def intruded : State := { writing with port := [⟨false, .setDst [1]⟩] }

theorem witness_NoStepFaults : Inv writing ∧ Inv intruded ∧ step intruded = .refused .hostAccessWhileBusy :=
  ⟨writing_inv, ⟨by decide, by decide, by decide, by decide, by decide, by decide, by decide, (by intro h; cases h), by decide⟩, rfl⟩

theorem witness_EveryMutationIsEnabledFirst : Inv writing ∧ GateInv writing ∧ ∃ t, step writing = .next t :=
  ⟨writing_inv, ⟨by decide, by decide, by decide, by decide, by decide, by decide, by decide⟩, exists_next (by decide)⟩

/-- A zero-length read at the end of the array, about to transmit its frame. -/
def readingNothing : State :=
  { at' .read .xfer .tx with page := 65536, base := 16777216, selected := true }

theorem witness_EverySentFrameIsWellFormed :
    (Inv writing ∧ writing.frame = some [0x02, 0x00, 0x00, 0xFE, 1, 2]) ∧
      (Inv readingNothing ∧ readingNothing.frame = some [0x03, 0x00, 0x00, 0x00] ∧ readingNothing.pc.stage = .xfer ∧
        readingNothing.op ∈ [Op.read, .fastRead]) :=
  ⟨⟨writing_inv, by decide⟩,
    ⟨by decide, by decide, by decide, by decide, by decide, by decide, by decide, (by intro _ h; cases h), by decide⟩, by decide⟩

theorem witness_SessionIsSetOnce :
    (Inv writing ∧ (∃ t, step writing = .next t) ∧ writing.bound = true) ∧
      (∃ t, exec .ce (at' .eraseChip .mut .tx) = .next t) ∧ Instr.ce ≠ .opInit :=
  ⟨⟨writing_inv, exists_next (by decide), rfl⟩, exists_next (by decide), by decide⟩

theorem witness_InstructionsKeepOtherRegisters :
    (∃ t, exec .ce (at' .eraseChip .mut .tx) = .next t) ∧ (∃ t, exec .opWrite (at' .write .fin .dash) = .next t) ∧
      ∃ t, exec .opInit State.reset = .next t := 
  ⟨exists_next (by decide), exists_next (by decide), exists_next (by decide)⟩

theorem witness_InstructionsKeepOtherFlashBytes :
    let s := { at' .eraseSector .mut .desel with dev := { holding [(8192, 4)] [0x20, 0x00, 0x10, 0x00] with wel := true } }
    (∃ t, exec (.se 0x001000) s = .next t) ∧ s.dev.storesTo s.cfg .desel 8192 = false ∧ s.dev.storesTo s.cfg .desel 8191 = true :=
  ⟨exists_next (by decide), by decide, by decide⟩

theorem witness_SequencerSeesTheDeviceOnlyThroughBytes : (∃ t, step writing = .next t) ∧ writing.pc.sub ≠ .rx :=
  ⟨exists_next (by decide), by decide⟩

theorem witness_LatchGatesEveryMutation : (holding [(0, 1)] [0xC7]).wel = false ∧ (holding [(0, 1)] [0xC7]).kind ≠ .general := by decide

theorem witness_ProgramAndsThePayload :
    let d := { holding [] [0x02, 0xFF, 0xFF, 0xFF, 0x5A] with wel := true }
    d.kind = .stub ∧ d.wel = true ∧ d.win = 0x02 :: 0xFF :: 0xFF :: 0xFF :: [0x5A] ∧ ([0x5A] : List Byte) ≠ [] ∧
      16777215 % 256 + 1 ≤ 256 ∧ 16777215 + 1 ≤ Params.default.totalBytes := by decide

theorem witness_ErasesSetTheirBytes :
    let d := { holding [] [0x20, 0xFF, 0xF0, 0x00] with wel := true }
    d.kind = .stub ∧ d.wel = true ∧ d.win = [0x20, 0xFF, 0xF0, 0x00] ∧ { d with win := [0xC7] }.win = [0xC7] ∧
      frameMutates d.win = true ∧ winFrame d.win ≠ .nothing := by decide

theorem witness_FailedProgramLeavesItsRangeLatchAndBusyUnknown :
    let d := { Device.powerUp with kind := .general }
    d.kind = .general ∧ d.win = [] ∧ ([0x5A] : List Byte) ≠ [] ∧ d.stale.any frameMutates = false ∧ 16777215 % 256 + 1 ≤ 256 ∧
      16777215 + 1 ≤ Params.default.totalBytes ∧ { d with stale := [[0xC7]] }.stale.any frameMutates = true := by
  decide

theorem witness_LatchMayBeLeftSet :
    let s := { idle with answers := [.auto, .err .fail] }
    s.ready ∧ s.cfg.deselectOnFail = true ∧ s.dev.kind = .stub ∧ Answer.auto.isErr = false ∧ s.answers = .auto :: .err .fail :: [] := by
  decide

theorem witness_WriteThenReadReturnsTheBytes :
    let s := { idle with offs := 255, len := 2, src := [1, 2], dst := [0, 0] }
    (s.ready ∧ s.cfg.wf ∧ s.answers = [] ∧ s.dev.kind = .stub ∧ s.start + s.len ≤ s.cfg.totalBytes ∧ s.len ≤ s.src.length ∧
      s.len ≤ s.dst.length) ∧ ∀ x, s.start ≤ x → x < s.start + s.len → s.dev.flash.read x = 0xFF :=
  ⟨by decide, fun _ _ _ => rfl⟩

end Sys2Proof.Tests
end

/-! The machine with another device behind the port and another trace before it (`00_scope.md` R10, R11). A step neither reads the trace
nor, but for the bytes of a Receive, the device: started behind another device it does the same, and adds the same event to the trace. -/

namespace Sys2Proof.Machine

/-- The state with the device `d` behind the Transport Port and the trace `tr` recorded. -/
def State.behind (s : State) (d : Device) (tr : List Event) : State := { s with dev := d, trace := tr }

/-- An outcome with its next state put behind a device and a trace. -/
def Res.behind (r : Res) (d : Device) (tr : List Event) : Res :=
  match r with
  | .next t => .next (t.behind d tr)
  | .fault f => .fault f
  | .refused q => .refused q

section Behind

variable (s : State) (d : Device) (tr : List Event)

@[simp] theorem State.behind_self : s.behind s.dev s.trace = s := rfl
@[simp] theorem State.behind_cfg : (s.behind d tr).cfg = s.cfg := rfl
@[simp] theorem State.behind_op : (s.behind d tr).op = s.op := rfl
@[simp] theorem State.behind_pc : (s.behind d tr).pc = s.pc := rfl
@[simp] theorem State.behind_busy : (s.behind d tr).busy = s.busy := rfl
@[simp] theorem State.behind_bound : (s.behind d tr).bound = s.bound := rfl
@[simp] theorem State.behind_pending : (s.behind d tr).pending = s.pending := rfl
@[simp] theorem State.behind_cur : (s.behind d tr).cur = s.cur := rfl
@[simp] theorem State.behind_endAddr : (s.behind d tr).endAddr = s.endAddr := rfl
@[simp] theorem State.behind_len : (s.behind d tr).len = s.len := rfl
@[simp] theorem State.behind_src : (s.behind d tr).src = s.src := rfl
@[simp] theorem State.behind_dst : (s.behind d tr).dst = s.dst := rfl
@[simp] theorem State.behind_resp : (s.behind d tr).resp = s.resp := rfl
@[simp] theorem State.behind_rangeOk : (s.behind d tr).rangeOk = s.rangeOk := rfl
@[simp] theorem State.behind_sectorOk : (s.behind d tr).sectorOk = s.sectorOk := rfl

@[simp] theorem Res.behind_next : Res.behind (.next s) d tr = .next (s.behind d tr) := rfl
@[simp] theorem Res.behind_fault (f : Fault) : Res.behind (.fault f) d tr = .fault f := rfl
@[simp] theorem Res.behind_refused (q : Refusal) : Res.behind (.refused q) d tr = .refused q := rfl

/-! What makes no call commutes with `behind`: it neither reads nor changes the device and the trace. -/

@[simp] theorem State.goto_behind (stage : Stage) (sub : Sub) : (s.behind d tr).goto stage sub = (s.goto stage sub).behind d tr := rfl
@[simp] theorem State.complete_behind : (s.behind d tr).complete = s.complete.behind d tr := rfl
@[simp] theorem State.accepted_behind (o : Op) : (s.behind d tr).accepted o = (s.accepted o).behind d tr := rfl
@[simp] theorem State.advance_behind : (s.behind d tr).advance = s.advance.behind d tr := rfl
@[simp] theorem State.startWrite_behind : (s.behind d tr).startWrite = s.startWrite.behind d tr := rfl
@[simp] theorem State.endRead_behind : (s.behind d tr).endRead = s.endRead.behind d tr := rfl

@[simp] theorem State.popPort_behind : (s.behind d tr).popPort = s.popPort.behind d tr := rfl

@[simp] theorem hostWrite_behind (a : HostAct) : hostWrite a (s.behind d tr) = (hostWrite a s).behind d tr := by
  cases a <;> rfl

@[simp] theorem State.spoilOutputs_behind : (s.behind d tr).spoilOutputs = s.spoilOutputs.behind d tr := by
  unfold State.spoilOutputs
  rw [State.behind_op]
  split <;> rfl

@[simp] theorem State.raise_behind (r : Result) : (s.behind d tr).raise r = (s.raise r).behind d tr := by
  unfold State.raise
  rw [State.spoilOutputs_behind]
  rfl

@[simp] theorem State.failCall_behind (k : ErrKind) : (s.behind d tr).failCall k = (s.failCall k).behind d tr := by
  unfold State.failCall
  rw [State.behind_cfg, State.raise_behind]
  split <;> rfl

@[simp] theorem State.loopTest_behind : (s.behind d tr).loopTest = s.loopTest.behind d tr := by
  unfold State.loopTest
  rw [State.behind_cur, State.behind_endAddr]
  split <;> rfl

@[simp] theorem State.endReadId_behind : (s.behind d tr).endReadId = s.endReadId.behind d tr := by
  unfold State.endReadId
  rw [State.behind_resp, State.raise_behind]
  split <;> rfl

theorem afterXfer_behind : afterXfer (s.behind d tr) = Res.behind (afterXfer s) d tr := by
  cases h : s.op <;> simp [afterXfer, h]

theorem afterDisable_behind : afterDisable (s.behind d tr) = Res.behind (afterDisable s) d tr := by
  cases h : s.op <;> simp [afterDisable, h]

theorem afterTxn_behind : afterTxn (s.behind d tr) = Res.behind (afterTxn s) d tr := by
  by_cases hp : s.pending = .ok
  · cases hs : s.pc.stage <;> simp [afterTxn, hp, hs, afterXfer_behind, afterDisable_behind]
  · simp [afterTxn, hp]

theorem accept_behind (o : Op) : accept o (s.behind d tr) = Res.behind (accept o s) d tr := by
  unfold accept
  rw [State.behind_busy, State.behind_bound, State.accepted_behind]
  split
  · rfl
  · (repeat' split) <;> rfl

theorem checkRead_behind : checkRead (s.behind d tr) = Res.behind (checkRead s) d tr := by
  unfold checkRead
  rw [State.behind_rangeOk, State.behind_len, State.behind_dst, State.raise_behind]
  split
  · split <;> rfl
  · rfl

theorem checkEraseSector_behind : checkEraseSector (s.behind d tr) = Res.behind (checkEraseSector s) d tr := by
  unfold checkEraseSector
  rw [State.behind_sectorOk, State.raise_behind]
  split <;> rfl

theorem checkWrite_behind : checkWrite (s.behind d tr) = Res.behind (checkWrite s) d tr := by
  unfold checkWrite
  rw [State.behind_rangeOk, State.behind_len, State.behind_src, State.raise_behind, State.startWrite_behind, State.loopTest_behind]
  split
  · split <;> rfl
  · rfl

theorem opCheck_behind (o : Op) : opCheck o (s.behind d tr) = Res.behind (opCheck o s) d tr := by
  cases o with
  | reset | readId | eraseChip | init => rfl
  | read | fastRead => exact checkRead_behind s d tr
  | eraseSector => exact checkEraseSector_behind s d tr
  | write => exact checkWrite_behind s d tr

/-! The calls: Select, Deselect, Delay and Transmit have events that do not depend on the device; a Receive has one that does. -/

@[simp] theorem State.select_behind : (s.behind d tr).select = s.select.behind (d.onEvent s.cfg .sel) (tr ++ [.sel]) := rfl

@[simp] theorem State.deselect_behind : (s.behind d tr).deselect = s.deselect.behind (d.onEvent s.cfg .desel) (tr ++ [.desel]) := rfl

@[simp] theorem State.delay_behind (p : DelayParam) :
    (s.behind d tr).delay p = (s.delay p).behind (d.onEvent s.cfg (.dly p)) (tr ++ [.dly p]) := rfl

/-- What a failed call does after its event commutes with `behind`. -/
theorem State.failCall_emit_behind (e : Event) (k : ErrKind) :
    ((s.behind d tr).emit e).dropAnswer.failCall k = (s.dropAnswer.failCall k).behind (d.onEvent s.cfg e) (tr ++ [e]) :=
  State.failCall_behind s.dropAnswer _ _ k

@[simp] theorem State.transmit_behind (f : List Byte) (r : Bool) :
    (s.behind d tr).transmit f r = (s.transmit f r).behind (d.onEvent s.cfg (.tx f s.txAnswer)) (tr ++ [.tx f s.txAnswer]) := by
  cases h : s.txAnswer with
  | ok => rw [transmit_ok h, transmit_ok (s := s.behind d tr) h]; rfl
  | err k =>
    have here := State.failCall_emit_behind s s.dev s.trace (.tx f (.err k)) k
    rw [State.behind_self] at here
    rw [transmit_err h, transmit_err (s := s.behind d tr) h, State.failCall_emit_behind, here]
    rfl

/-- Whether a Receive fails is the environment's choice alone (`00_scope.md` R11). -/
theorem rxAnswer_eq_err_iff (n : Nat) (k : ErrKind) : s.rxAnswer n = .err k ↔ s.answers.head? = some (.err k) := by
  unfold State.rxAnswer
  split <;> simp_all

/-- A Receive records its event and plays it to the device. -/
theorem State.receive_eq_behind (n : Nat) :
    s.receive n =
      (s.receive n).behind (s.dev.onEvent s.cfg (.rx n (s.rxAnswer n))) (s.trace ++ [.rx n (s.rxAnswer n)]) := by
  cases h : s.rxAnswer n with
  | ok bytes => rw [receive_ok h]; rfl
  | err k =>
    have here := State.failCall_emit_behind s s.dev s.trace (.rx n (.err k)) k
    rw [State.behind_self] at here
    rw [receive_err h, here]
    rfl

/-- Behind another device a Receive goes on as before: but for the device and the event, the received bytes alone may differ. -/
theorem State.receive_behind (n : Nat) :
    { (s.behind d tr).receive n with dev := (s.receive n).dev, trace := (s.receive n).trace, resp := (s.receive n).resp } =
      s.receive n := by
  cases h : s.rxAnswer n with
  | ok bytes =>
    cases h' : (s.behind d tr).rxAnswer n with
    | ok bytes' => rw [receive_ok h, receive_ok h']; rfl
    | err k => simp [(rxAnswer_eq_err_iff s n k).2 ((rxAnswer_eq_err_iff (s.behind d tr) n k).1 h')] at h
  | err k =>
    have h' : (s.behind d tr).rxAnswer n = .err k := (rxAnswer_eq_err_iff _ n k).2 ((rxAnswer_eq_err_iff s n k).1 h)
    have here := State.failCall_emit_behind s s.dev s.trace (.rx n (.err k)) k
    rw [State.behind_self] at here
    rw [receive_err h, receive_err h', State.failCall_emit_behind, here]
    rfl

end Behind

/-! The cases of a delay, of a host operation and of the machine's step, each as an equation. -/

theorem delayStep_eq {s : State} {p : DelayParam} (hp : delayOf s.op = some p) :
    delayStep s = .next (if s.op = .reset then (s.delay p).complete else (s.delay p).goto .dis .sel) := by
  simp [delayStep, hp]

theorem hostOp_idle {s : State} (hs : s.pc.stage = .idle) (o : Op) (c : State → Res) : hostOp o c s = accept o s := by
  simp [hostOp, hs]

theorem hostOp_chk {s : State} (hs : s.pc.stage = .chk) (c : State → Res) : hostOp s.op c s = c s := by
  simp [hostOp, hs]

theorem hostOp_dly {s : State} (hs : s.pc.stage = .dly) (c : State → Res) : hostOp s.op c s = delayStep s := by
  simp [hostOp, hs]

theorem hostOp_fin {s : State} (hs : s.pc.stage = .fin) (c : State → Res) : hostOp s.op c s = .next s.finish := by
  simp [hostOp, hs]

theorem hostOp_txn {s : State} (hs : s.pc.stage.hasTxn = true) (c : State → Res) : hostOp s.op c s = wireStep s := by
  unfold hostOp
  cases h : s.pc.stage <;> simp_all [Stage.hasTxn]

theorem step_wait {s : State} (hs : s.pc.stage = .idle) (hp : s.port = []) : step s = .next s := by
  simp [step, State.plan, State.planIdle, hs, hp]

theorem step_hostWrite {s : State} {a : HostAction} {rest : List HostAction} (hs : s.pc.stage = .idle) (hp : s.port = a :: rest)
    (hb : s.busy = false) (ha : ∀ w, a.act ≠ .writeCmd w) : step s = .next (hostWrite a.act s.popPort) := by
  simp [step, State.plan, State.planIdle, hs, hp, hb]

theorem step_command {s : State} {a : HostAction} {rest : List HostAction} {w : Nat} (hs : s.pc.stage = .idle)
    (hp : s.port = a :: rest) (ha : a.act = .writeCmd w) :
    step s = accept (decodeCmd (s.cfg.hold w)) (hostWrite a.act s.popPort) := by
  have hrun : step s = exec (decodeCmd (s.cfg.hold w)).toInstr (hostWrite a.act s.popPort) := by
    simp [step, State.plan, State.planIdle, hs, hp, ha]
  rw [hrun, exec_op, hostOp_idle]
  rw [ha]
  exact hs

theorem step_running {s : State} {i : Instr} (hs : s.pc.stage ≠ .idle) (hn : s.intrusion = none) (hi : s.instrAt = some i) :
    step s = exec i s := by
  simp [step, State.plan, State.planRunning, hs, hn, hi]

/-! Every step is one of two kinds. -/

/-- The step that `f` makes from `s` to `t`, behind any device and after any trace: at most one call whose event does not depend on them, or
a Receive. -/
inductive PortStep (f : State → Res) (s t : State) : Prop
  | blind (evs : List Event) (len : evs.length ≤ 1)
      (run : ∀ d tr, f (s.behind d tr) = .next (t.behind (d.play s.cfg evs) (tr ++ evs)))
  | receive (n : Nat) (sub : s.pc.sub = .rx) (ends : t = s.receive n)
      (run : ∀ d tr, f (s.behind d tr) = .next ((s.behind d tr).receive n))

/-- A step that makes no call. -/
theorem PortStep.quiet {f : State → Res} {s t : State} (run : ∀ d tr, f (s.behind d tr) = .next (t.behind d tr)) : PortStep f s t :=
  .blind [] (Nat.zero_le 1) fun d tr => by rw [run, Device.play_nil, List.append_nil]

/-- A step that makes one call. -/
theorem PortStep.call {f : State → Res} {s t : State} (e : Event)
    (run : ∀ d tr, f (s.behind d tr) = .next (t.behind (d.onEvent s.cfg e) (tr ++ [e]))) : PortStep f s t :=
  .blind [e] (Nat.le_refl 1) run

/-- A function that takes the same steps as `g` from where `s` stands takes a step of the same kind. -/
theorem PortStep.congr {f g : State → Res} {s t : State} (h : PortStep g s t) (e : ∀ d tr, f (s.behind d tr) = g (s.behind d tr)) :
    PortStep f s t := by
  cases h with
  | blind evs len run => exact .blind evs len fun d tr => (e d tr).trans (run d tr)
  | receive n sub ends run => exact .receive n sub ends fun d tr => (e d tr).trans (run d tr)

theorem txnStep_portStep {s t : State} {f : List Byte} {n : Option Nat} (h : txnStep f n s = .next t) : PortStep (txnStep f n) s t := by
  obtain ⟨hs, ⟨hb, rfl⟩ | ⟨hb, rfl⟩ | ⟨m, rfl, hb, rfl⟩ | ⟨hb, ht⟩⟩ := txnStep_cases h
  · exact .call .sel fun d tr => txnStep_sel (s := s.behind d tr) hs hb f n
  · refine .call (.tx f s.txAnswer) fun d tr => ?_
    rw [txnStep_tx (s := s.behind d tr) hs hb, State.transmit_behind]
  · exact .receive m hb rfl fun d tr => txnStep_rx (s := s.behind d tr) hs hb f m
  · refine .call .desel fun d tr => ?_
    rw [txnStep_desel (s := s.behind d tr) hs hb, State.deselect_behind, afterTxn_behind, ht]
    rfl

theorem delayStep_portStep {s t : State} (h : delayStep s = .next t) : PortStep delayStep s t := by
  obtain ⟨p, hp, ⟨ho, rfl⟩ | ⟨ho, rfl⟩⟩ := delayStep_cases h
  · exact .call (.dly p) fun d tr => by simp [delayStep_eq (s := s.behind d tr) hp, ho]
  · exact .call (.dly p) fun d tr => by simp [delayStep_eq (s := s.behind d tr) hp, ho]

theorem accept_portStep {s t : State} {o : Op} (h : accept o s = .next t) : PortStep (accept o) s t :=
  .quiet fun d tr => by rw [accept_behind, h, Res.behind_next]

theorem opCheck_portStep {s t : State} {o : Op} (h : opCheck o s = .next t) : PortStep (opCheck o) s t :=
  .quiet fun d tr => by rw [opCheck_behind, h, Res.behind_next]

theorem exec_isWire_portStep {i : Instr} (hw : i.isWire = true) {s t : State} (h : exec i s = .next t) : PortStep (exec i) s t := by
  obtain ⟨-, hf, ht⟩ | ⟨o, rfl, -⟩ := exec_cases h
  · exact (txnStep_portStep ht).congr fun d tr => exec_wire (s := s.behind d tr) hw hf
  · cases o <;> cases hw

theorem wireStep_portStep {s t : State} (h : wireStep s = .next t) : PortStep wireStep s t := by
  cases hi : s.wireInstr with
  | none => simp [wireStep, hi] at h
  | some i =>
    rw [wireStep_eq hi] at h
    exact (exec_isWire_portStep (wireInstr_isWire hi) h).congr fun d tr => wireStep_eq (s := s.behind d tr) hi

theorem hostOp_portStep {s t : State} {o : Op} (h : hostOp o (opCheck o) s = .next t) : PortStep (hostOp o (opCheck o)) s t := by
  obtain ⟨hs, ht⟩ | ⟨rfl, ⟨hs, ht⟩ | ⟨hs, ht⟩ | ⟨hs, rfl⟩ | ⟨hs, ht⟩⟩ := hostOp_cases h
  · exact (accept_portStep ht).congr fun d tr => hostOp_idle (s := s.behind d tr) hs _ _
  · exact (opCheck_portStep ht).congr fun d tr => hostOp_chk (s := s.behind d tr) hs _
  · exact (delayStep_portStep ht).congr fun d tr => hostOp_dly (s := s.behind d tr) hs _
  · exact .quiet fun d tr => hostOp_fin (s := s.behind d tr) hs _
  · exact (wireStep_portStep ht).congr fun d tr => hostOp_txn (s := s.behind d tr) hs _

theorem exec_portStep {i : Instr} {s t : State} (h : exec i s = .next t) : PortStep (exec i) s t := by
  obtain ⟨hw, -, -⟩ | ⟨o, rfl, ht⟩ := exec_cases h
  · exact exec_isWire_portStep hw h
  · exact (hostOp_portStep ht).congr fun d tr => exec_op o _

/-- The kind of every step of the machine, from which both obligations are read off. -/
theorem step_portStep {s t : State} (h : step s = .next t) : PortStep step s t := by
  obtain ⟨hs, hp, rfl⟩ | ⟨a, rest, hs, hp, hb, ha, rfl⟩ | ⟨a, rest, w, hs, hp, ha, -⟩ | ⟨i, hs, hn, hi, ht⟩ := step_cases h
  · exact .quiet fun d tr => step_wait (s := t.behind d tr) hs hp
  · refine .quiet fun d tr => ?_
    rw [step_hostWrite (s := s.behind d tr) hs hp hb ha, State.popPort_behind, hostWrite_behind]
  · rw [step_command hs hp ha] at h
    refine .quiet fun d tr => ?_
    rw [step_command (s := s.behind d tr) hs hp ha, State.popPort_behind, hostWrite_behind, accept_behind, State.behind_cfg, h]
    rfl
  · exact (exec_portStep ht).congr fun d tr => step_running (s := s.behind d tr) hs hn hi

/-! The obligations. -/

/-- Settles O9: the events of `step_portStep`, read off behind the state's own device and trace. -/
theorem stepMakesAtMostOnePortCall : Obligations.StepMakesAtMostOnePortCall := by
  unfold Obligations.StepMakesAtMostOnePortCall
  intro s t h
  cases step_portStep h with
  | blind evs len run =>
    have ht : t = t.behind _ _ := Host.Outcome.next.inj (h.symm.trans (run s.dev s.trace))
    exact ⟨evs, len, congrArg State.trace ht, congrArg State.dev ht⟩
  | receive n _ ends _ =>
    subst ends
    exact ⟨[.rx n (s.rxAnswer n)], Nat.le_refl 1, congrArg State.trace (s.receive_eq_behind n),
      congrArg State.dev (s.receive_eq_behind n)⟩

/-- Settles O52: a step that is no Receive adds the same events behind any device, and a Receive differs in the received bytes alone. -/
theorem sequencerSeesTheDeviceOnlyThroughBytes : Obligations.SequencerSeesTheDeviceOnlyThroughBytes := by
  unfold Obligations.SequencerSeesTheDeviceOnlyThroughBytes
  intro s t d h
  cases step_portStep h with
  | blind evs _ run =>
    have ht : t = t.behind _ _ := Host.Outcome.next.inj (h.symm.trans (run s.dev s.trace))
    exact ⟨_, run d s.trace, rfl, fun _ => ⟨(congrArg State.trace ht).symm, rfl⟩⟩
  | receive n sub ends run =>
    subst ends
    exact ⟨_, run d s.trace, s.receive_behind d s.trace n, fun hsub => absurd sub hsub⟩

end Sys2Proof.Machine

/-! The step at each sequence position (`10_state.md` R26, R27), as equations. -/

namespace Sys2Proof.Machine

theorem exec_idle {s : State} (hs : s.pc.stage = .idle) (o : Op) : exec o.toInstr s = accept o s := by
  rw [exec_op, hostOp_idle hs]

theorem exec_chk {s : State} (hs : s.pc.stage = .chk) : exec s.op.toInstr s = opCheck s.op s := by
  rw [exec_op, hostOp_chk hs]

theorem exec_dly {s : State} (hs : s.pc.stage = .dly) : exec s.op.toInstr s = delayStep s := by
  rw [exec_op, hostOp_dly hs]

theorem exec_fin {s : State} (hs : s.pc.stage = .fin) : exec s.op.toInstr s = .next s.finish := by
  rw [exec_op, hostOp_fin hs]

theorem exec_txn {s : State} (hs : s.pc.stage.hasTxn = true) : exec s.op.toInstr s = wireStep s := by
  rw [exec_op, hostOp_txn hs]

theorem instrAt_own {s : State} (hs : s.pc.stage ∈ [Stage.chk, .dly, .fin]) : s.instrAt = some s.op.toInstr := by
  simp only [List.mem_cons, List.not_mem_nil, or_false] at hs
  obtain h | h | h := hs <;> simp [State.instrAt, h]

theorem instrAt_txn {s : State} (hs : s.pc.stage.hasTxn = true) : s.instrAt = s.wireInstr := by
  unfold State.instrAt
  cases h : s.pc.stage <;> simp_all [Stage.hasTxn]

/-- Outside `IDLE` a stage is one of the operation's own or one of the four that run a transaction. -/
theorem own_or_hasTxn {g : Stage} (hg : g ≠ .idle) : g ∈ [Stage.chk, .dly, .fin] ∨ g.hasTxn = true := by
  cases g <;> simp_all [Stage.hasTxn]

theorem hasTxn_ne {g : Stage} (hg : g.hasTxn = true) : g ≠ .idle ∧ g ≠ .chk ∧ g ≠ .dly ∧ g ≠ .fin := by
  cases g <;> simp_all [Stage.hasTxn]

/-- Outside `IDLE` the machine's step is a step of the running operation, unless the host breaks in. -/
theorem step_eq_exec_op {s : State} (hs : s.pc.stage ≠ .idle) (hn : s.intrusion = none) : step s = exec s.op.toInstr s := by
  obtain hown | htxn := own_or_hasTxn hs
  · exact step_running hs hn (instrAt_own hown)
  · rw [exec_txn htxn]
    cases hi : s.wireInstr with
    | some i => rw [step_running hs hn (instrAt_txn htxn ▸ hi), wireStep_eq hi]
    | none => simp [step, State.plan, State.planRunning, hs, hn, instrAt_txn htxn, wireStep, hi]

theorem intrusion_eq_some {s : State} {a : HostAct} {rest : List HostAction} (hp : s.port = ⟨false, a⟩ :: rest) :
    s.intrusion = some a := by
  simp [State.intrusion, hp]

/-- A host that breaks in is refused. -/
theorem step_intruded {s : State} {a : HostAct} (hs : s.pc.stage ≠ .idle) (hn : s.intrusion = some a) :
    step s = .refused (refusalOf a) := by
  simp [step, State.plan, State.planRunning, hs, hn]

theorem refusalOf_of_ne_writeCmd {a : HostAct} (ha : ∀ w, a ≠ .writeCmd w) : refusalOf a = .hostAccessWhileBusy := by
  cases a with
  | writeCmd w => exact absurd rfl (ha w)
  | setPage | setOffs | setLen | setSect | setPinIn | setSrc | setDst => rfl

/-- The instruction of a transaction stage whose frame carries one instruction. -/
theorem wireInstr_of_frame {s : State} {f : List Byte} {i : Instr} (hf : s.frame = some f) (hd : decodeFrame f = .instrs [i]) :
    s.wireInstr = some i := by
  have hindex : s.pc.sub.windowIndex [i] = 0 := by simp [Sub.windowIndex]
  simp [State.wireInstr, hf, hd, hindex]

/-- The reset frame carries two: `RSTEN` at the Select, `RST` from the Transmit on (log 2). -/
theorem wireInstr_reset {s : State} (hs : s.pc.stage = .xfer) (ho : s.op = .reset) :
    s.wireInstr = some (if s.pc.sub = .sel then .rsten else .rst) := by
  have hf : s.frame = some [Opcode.rsten, Opcode.rst] := by simp [State.frame, State.xferFrame, hs, ho]
  have hd : decodeFrame [Opcode.rsten, Opcode.rst] = .instrs [.rsten, .rst] := by decide
  simp only [State.wireInstr, hf, hd, Sub.windowIndex]
  split <;> rfl

/-- In `IDLE` the machine's step on a command is a step of the operation that the command names. -/
theorem step_eq_exec_command {s : State} {b : Bool} {w : Nat} {rest : List HostAction} (hs : s.pc.stage = .idle)
    (hp : s.port = ⟨b, .writeCmd w⟩ :: rest) :
    step s = exec (decodeCmd (s.cfg.hold w)).toInstr { s with port := rest, cmd := s.cfg.hold w } := by
  have hgiven : hostWrite (.writeCmd w) s.popPort = { s with port := rest, cmd := s.cfg.hold w } := by
    simp [hostWrite, State.popPort, hp]
  rw [step_command hs hp rfl, hgiven]
  exact (exec_idle (s := { s with port := rest, cmd := s.cfg.hold w }) hs _).symm

/-! The obligations on the step and on acceptance. -/

/-- Settles O8, position by position. -/
theorem stepRunsTheInstructionAtThePosition : Obligations.StepRunsTheInstructionAtThePosition := by
  unfold Obligations.StepRunsTheInstructionAtThePosition
  refine ⟨fun s i hs hn hi => step_running hs hn hi, fun s hs => instrAt_own hs, ?frame, ?reset, ?command, fun s => step_wait⟩
  case frame =>
    intro s f i hs hf hd
    rw [instrAt_txn hs, wireInstr_of_frame hf hd]
  case reset =>
    intro s hs ho
    rw [instrAt_txn (by rw [hs]; rfl), wireInstr_reset hs ho]
  case command =>
    exact fun s b w rest hs hp => step_eq_exec_command hs hp

/-- Settles O10: in a transaction stage both are the step that `wireStep` makes. -/
theorem operationStepIsItsWireInstructionsStep : Obligations.OperationStepIsItsWireInstructionsStep := by
  unfold Obligations.OperationStepIsItsWireInstructionsStep
  intro s i hs hi
  rw [instrAt_txn hs] at hi
  rw [exec_txn hs, wireStep_eq hi]

/-- Settles O12. -/
theorem commandIsAccepted : Obligations.CommandIsAccepted := by
  unfold Obligations.CommandIsAccepted
  intro o s hs hb ho
  have hbound : s.bound = true ↔ o ≠ .init := by
    obtain ⟨h, hne⟩ | ⟨h, rfl⟩ := ho <;> simp_all
  rw [exec_idle hs, accept_next hb hbound]
  rfl

/-- Settles O14: with `BUSY = 0` by `step_hostWrite`, register by register, and with `BUSY = 1` by `step_intruded`. -/
theorem hostWritesItsRegisters : Obligations.HostWritesItsRegisters := by
  unfold Obligations.HostWritesItsRegisters
  refine ⟨?written, ?refused⟩
  case written =>
    intro s b rest v n bytes hs hb
    have write {a : HostAct} (hp : s.port = ⟨b, a⟩ :: rest) (ha : ∀ w, a ≠ .writeCmd w) :
        step s = .next (hostWrite a { s with port := rest }) := by
      rw [step_hostWrite hs hp hb ha, State.popPort, hp]
      rfl
    refine ⟨?_, ?_, ?_, ?_, ?_, ?_, ?_⟩ <;> exact fun hp => write hp (by simp)
  case refused =>
    intro s a rest hs hp ha
    rw [step_intruded hs (intrusion_eq_some hp), refusalOf_of_ne_writeCmd ha]

/-- Settles O16: each check by `exec_chk`, that of `write` through its loop test. -/
theorem checksThatPassGoOn : Obligations.ChecksThatPassGoOn := by
  unfold Obligations.ChecksThatPassGoOn
  intro s hs
  have chk {o : Op} (ho : s.op = o) : exec o.toInstr s = opCheck o s := ho ▸ exec_chk hs
  have read (hr : s.page * 256 + s.offs + s.len ≤ s.cfg.totalBytes) (hl : s.len ≤ s.dst.length) :
      checkRead s = .next { s with base := s.page * 256 + s.offs, pc := ⟨.xfer, .sel⟩ } := by
    have hrange : s.rangeOk = true := decide_eq_true hr
    simp only [checkRead, hrange, hl, if_true]
    rfl
  refine ⟨fun ho => chk ho, fun ho => chk ho, fun ho => chk ho, fun ho => chk ho, ?sector, fun hr =>
    ⟨fun ho hl => (chk ho).trans (read hr hl), fun ho hl => (chk ho).trans (read hr hl), fun ho hl => ⟨?empty, ?chunk⟩⟩⟩
  case sector =>
    intro ho hlt
    have hok : s.sectorOk = true := decide_eq_true hlt
    refine (chk ho).trans ?_
    simp only [opCheck, checkEraseSector, hok, if_true]
    rfl
  all_goals
    have hrange : s.rangeOk = true := decide_eq_true hr
    have write : exec .opWrite s = .next s.startWrite.loopTest := by
      refine (chk ho).trans ?_
      simp only [opCheck, checkWrite, hrange, hl, if_true]
  case empty =>
    intro h0
    rw [write, loopTest_end (by simp [h0])]
    rfl
  case chunk =>
    intro h0
    have hlt : s.startWrite.cur < s.startWrite.endAddr := by simp; omega
    have hlen : s.startWrite.endAddr - s.startWrite.cur = s.len := by simp
    rw [write, loopTest_next hlt, hlen]
    rfl

/-- Settles O30. -/
theorem finishWritesTheResult : Obligations.FinishWritesTheResult := by
  unfold Obligations.FinishWritesTheResult
  exact fun s hs => exec_fin hs

/-- Settles O44. -/
theorem invariantHoldsAtReset : Obligations.InvariantHoldsAtReset := by
  unfold Obligations.InvariantHoldsAtReset
  refine ⟨⟨by decide, by decide, by decide, by decide, by decide, by decide, by decide, ?resp, Memory.fresh_wf⟩,
    ⟨by decide, by decide, by decide, by decide, by decide, by decide, by decide⟩⟩
  case resp =>
    intro h
    cases h

/-- Settles O60. -/
theorem hostReadsTheStatus : Obligations.HostReadsTheStatus := by
  unfold Obligations.HostReadsTheStatus
  intro s
  have hstatus : s.status.toNat = s.busy.toNat + 2 * s.done.toNat + 4 * s.result.code := by
    unfold State.status
    cases s.busy <;> cases s.done <;> cases s.result <;> rfl
  refine ⟨?_, ⟨rfl, rfl, rfl, rfl⟩, rfl, rfl, rfl, rfl, rfl, rfl, ?_, rfl, rfl, ?_⟩
  · rw [hstatus]
    cases s.busy <;> cases s.done <;> rfl
  · cases h : s.bound <;> simp [State.hostRead, h]
  · simp [State.hostRead]

end Sys2Proof.Machine

/-! The frame of a step (`10_state.md` R34): which registers each of them leaves as they were. -/

namespace Sys2Proof.Machine

/-! What the operations with cases leave. -/

theorem State.raise_id (s : State) (h : s.op ≠ .readId) (r : Result) : (s.raise r).id = s.id := by
  unfold State.raise State.spoilOutputs
  split <;> simp_all

theorem State.raise_dst (s : State) (h : s.op ∉ [Op.read, .fastRead]) (r : Result) : (s.raise r).dst = s.dst := by
  unfold State.raise State.spoilOutputs
  split <;> simp_all

/-- Everything a failed call can do. -/
theorem failCall_cases (s : State) (k : ErrKind) :
    (s.failCall k = { s with pending := translate k, pc := ⟨s.pc.stage, .desel⟩ }) ∨
      (s.cfg.deselectOnFail = false ∧ s.failCall k = s.raise (translate k)) := by
  cases h : s.cfg.deselectOnFail with
  | true => exact .inl (failCall_deselecting h k)
  | false => exact .inr ⟨rfl, failCall_aborting h k⟩

/-- Everything a Transmit can do. -/
theorem transmit_cases (s : State) (f : List Byte) (r : Bool) :
    (s.transmit f r = ((s.emit (.tx f .ok)).dropAnswer).goto s.pc.stage (if r then .rx else .desel)) ∨
      ∃ e k, s.transmit f r = ((s.emit e).dropAnswer).failCall k := by
  obtain h | ⟨k, h⟩ := txAnswer_ok_or_err s
  · exact .inl (transmit_ok h f r)
  · exact .inr ⟨_, k, transmit_err h f r⟩

/-- Everything a Receive can do. -/
theorem receive_cases (s : State) (n : Nat) :
    (∃ bytes, bytes.length = n ∧
      s.receive n = { (s.emit (.rx n (.ok bytes))).dropAnswer with resp := bytes, pc := ⟨s.pc.stage, .desel⟩ }) ∨
      ∃ e k, s.receive n = ((s.emit e).dropAnswer).failCall k := by
  cases h : s.rxAnswer n with
  | ok bytes => exact .inl ⟨bytes, rxAnswer_length h, receive_ok h⟩
  | err k => exact .inr ⟨_, k, receive_err h⟩

/-- Everything the loop test of `write` can do. -/
theorem loopTest_cases (s : State) :
    (s.cur < s.endAddr ∧ s.loopTest = { s with chunk := min s.rem (s.endAddr - s.cur), pc := ⟨.en, .sel⟩ }) ∨
      s.loopTest = s.complete := by
  by_cases h : s.cur < s.endAddr
  · exact .inl ⟨h, loopTest_next h⟩
  · exact .inr (loopTest_end h)

/-- Everything the end of `read_id` can do. -/
theorem endReadId_cases (s : State) :
    s.endReadId = s.raise .noResponse ∨ s.endReadId = { s with id := idOfBytes s.resp }.complete := by
  unfold State.endReadId
  split
  · exact .inl rfl
  · exact .inr rfl

/-! The frame of a step that neither accepts nor finishes. -/

/-- What a step in `CHK`, in a transaction or in `DLY` leaves as it was. -/
structure RunFrame (s t : State) : Prop where
  cfg : t.cfg = s.cfg := by simp
  page : t.page = s.page := by simp
  offs : t.offs = s.offs := by simp
  len : t.len = s.len := by simp
  sect : t.sect = s.sect := by simp
  cmd : t.cmd = s.cmd := by simp
  pinIn : t.pinIn = s.pinIn := by simp
  src : t.src = s.src := by simp
  port : t.port = s.port := by simp
  op : t.op = s.op := by simp
  busy : t.busy = s.busy := by simp
  done : t.done = s.done := by simp
  result : t.result = s.result := by simp
  session : s.op ≠ .init ∨ s.pc.stage ≠ .chk → t.bound = s.bound ∧ t.pinmap = s.pinmap := by simp
  id : s.op ≠ .readId → t.id = s.id := by simp
  dst : s.op ∉ [Op.read, .fastRead] → t.dst = s.dst := by simp
  base : s.pc.stage ≠ .chk → t.base = s.base ∧ t.endAddr = s.endAddr := by simp
  splitter : s.op ≠ .write ∨ s.pc.stage ∉ [Stage.chk, .dis] →
    t.cur = s.cur ∧ t.rem = s.rem ∧ t.chunk = s.chunk ∧ t.endAddr = s.endAddr := by simp
  window : s.pc.stage.hasTxn = false → t.selected = s.selected ∧ t.answers = s.answers ∧ t.resp = s.resp := by simp

theorem raise_frame (s : State) (r : Result) : RunFrame s (s.raise r) where
  id h := s.raise_id h r
  dst h := s.raise_dst h r

theorem failCall_frame {s : State} (hs : s.pc.stage.hasTxn = true) (e : Event) (k : ErrKind) :
    RunFrame s ((s.emit e).dropAnswer.failCall k) := by
  obtain h | ⟨-, h⟩ := failCall_cases (s.emit e).dropAnswer k <;> rw [h]
  · exact { window := by simp [hs] }
  · exact {
      window := by simp [hs]
      id := fun h => (s.emit e).dropAnswer.raise_id h _
      dst := fun h => (s.emit e).dropAnswer.raise_dst h _ }

theorem afterTxn_frame {s t : State} (hs : s.pc.stage.hasTxn = true) (h : afterTxn s.deselect = .next t) : RunFrame s t := by
  have window {t : State} : s.pc.stage.hasTxn = false → t.selected = s.selected ∧ t.answers = s.answers ∧ t.resp = s.resp := by
    simp [hs]
  obtain ⟨-, rfl⟩ | ⟨-, ⟨-, rfl⟩ | ⟨-, rfl⟩ | ⟨-, -, rfl⟩ | ⟨-, ho, rfl⟩ | ⟨-, ho, rfl⟩ | ⟨-, -, rfl⟩ | ⟨hdis, ho, rfl⟩⟩ :=
    afterTxn_cases h
  · exact { window, id := fun h => s.deselect.raise_id h _, dst := fun h => s.deselect.raise_dst h _ }
  · exact { window }
  · exact { window }
  · exact { window }
  · rw [State.deselect_op] at ho
    obtain h | h := endReadId_cases s.deselect <;> rw [h]
    · exact { window, id := by simp [ho], dst := fun h => s.deselect.raise_dst h _ }
    · exact { window, id := by simp [ho] }
  · rw [State.deselect_op] at ho
    rw [State.endRead]
    exact { window, dst := by obtain ho | ho := ho <;> simp [ho] }
  · exact { window }
  · rw [State.deselect_op] at ho
    rw [State.deselect_pc] at hdis
    obtain ⟨-, h⟩ | h := loopTest_cases s.deselect.advance <;> rw [h] <;> exact { window, splitter := by simp [ho, hdis] }

theorem txnStep_frame {s t : State} {f : List Byte} {n : Option Nat} (h : txnStep f n s = .next t) : RunFrame s t := by
  obtain ⟨hs, ⟨-, rfl⟩ | ⟨-, rfl⟩ | ⟨m, -, -, rfl⟩ | ⟨-, ht⟩⟩ := txnStep_cases h
  · exact { window := by simp [hs] }
  · obtain h | ⟨e, k, h⟩ := transmit_cases s f n.isSome <;> rw [h]
    · exact { window := by simp [hs] }
    · exact failCall_frame hs e k
  · obtain ⟨bytes, -, h⟩ | ⟨e, k, h⟩ := receive_cases s m <;> rw [h]
    · exact { window := by simp [hs] }
    · exact failCall_frame hs e k
  · exact afterTxn_frame hs ht

theorem delayStep_frame {s t : State} (h : delayStep s = .next t) : RunFrame s t := by
  obtain ⟨d, -, ⟨-, rfl⟩ | ⟨-, rfl⟩⟩ := delayStep_cases h <;> exact {}

theorem opCheck_frame {s t : State} (hs : s.pc.stage = .chk) (h : opCheck s.op s = .next t) : RunFrame s t := by
  have base {t : State} : s.pc.stage ≠ .chk → t.base = s.base ∧ t.endAddr = s.endAddr := by simp [hs]
  cases ho : s.op <;> rw [ho] at h
  case reset | readId | eraseChip => cases h; exact {}
  case read | fastRead =>
    obtain ⟨-, -, rfl⟩ | ⟨-, rfl⟩ := checkRead_cases h
    · exact { base }
    · exact raise_frame s _
  case eraseSector =>
    obtain ⟨-, rfl⟩ | ⟨-, rfl⟩ := checkEraseSector_cases h
    · exact { base }
    · exact raise_frame s _
  case write =>
    obtain ⟨-, -, rfl⟩ | ⟨-, rfl⟩ := checkWrite_cases h
    · obtain ⟨-, h⟩ | h := loopTest_cases s.startWrite <;> rw [h] <;> exact { base, splitter := by simp [ho, hs] }
    · exact raise_frame s _
  case init =>
    cases h
    exact { session := by simp [ho, hs] }

/-! The frame of every instruction. -/

/-- A step at the position of a transaction is a step of the transaction of the instruction there. -/
theorem wireStep_cases {s t : State} (h : wireStep s = .next t) :
    ∃ i, s.wireInstr = some i ∧ txnStep (frameBytes i) (s.respLen i) s = .next t := by
  cases hi : s.wireInstr with
  | none => simp [wireStep, hi] at h
  | some i =>
    rw [wireStep_eq hi] at h
    obtain ⟨-, -, ht⟩ | ⟨o, rfl, -⟩ := exec_cases h
    · exact ⟨i, rfl, ht⟩
    · have := wireInstr_isWire hi
      cases o <;> cases this

/-- Everything an instruction can do: a command is accepted, an operation finishes, or a step stays inside the running operation. -/
theorem exec_frame_cases {i : Instr} {s t : State} (h : exec i s = .next t) :
    (s.pc.stage = .idle ∧ ∃ o, t = s.accepted o) ∨ (s.pc.stage = .fin ∧ t = s.finish) ∨
      (s.pc.stage ∉ [Stage.idle, .fin] ∧ (s.pc.stage = .chk → i = s.op.toInstr) ∧ RunFrame s t) := by
  have inTxn (hs : s.pc.stage.hasTxn = true) : s.pc.stage ∉ [Stage.idle, .fin] ∧ s.pc.stage ≠ .chk := by
    obtain ⟨hidle, hchk, -, hfin⟩ := hasTxn_ne hs
    exact ⟨by simp [hidle, hfin], hchk⟩
  obtain ⟨-, -, ht⟩ | ⟨o, rfl, ht⟩ := exec_cases h
  · obtain ⟨hout, hchk⟩ := inTxn (txnStep_cases ht).1
    exact .inr (.inr ⟨hout, fun hs => absurd hs hchk, txnStep_frame ht⟩)
  · obtain ⟨hs, ht⟩ | ⟨rfl, ⟨hs, ht⟩ | ⟨hs, ht⟩ | ⟨hs, rfl⟩ | ⟨hs, ht⟩⟩ := hostOp_cases ht
    · obtain ⟨-, -, rfl⟩ := accept_cases ht
      exact .inl ⟨hs, o, rfl⟩
    · exact .inr (.inr ⟨by simp [hs], fun _ => rfl, opCheck_frame hs ht⟩)
    · exact .inr (.inr ⟨by simp [hs], fun _ => rfl, delayStep_frame ht⟩)
    · exact .inr (.inl ⟨hs, rfl⟩)
    · obtain ⟨i, -, ht⟩ := wireStep_cases ht
      exact .inr (.inr ⟨(inTxn hs).1, fun _ => rfl, txnStep_frame ht⟩)

/-- Outside the check of an `init` an instruction keeps the session. -/
theorem exec_session {i : Instr} {s t : State} (h : exec i s = .next t) (hi : s.pc.stage = .chk → i ≠ .opInit) :
    t.bound = s.bound ∧ t.pinmap = s.pinmap := by
  obtain ⟨-, o, rfl⟩ | ⟨-, rfl⟩ | ⟨-, hchk, hf⟩ := exec_frame_cases h
  · simp
  · simp
  · refine hf.session (or_iff_not_imp_right.2 fun hs ho => ?_)
    have hs : s.pc.stage = .chk := not_not.1 hs
    exact hi hs (by rw [hchk hs, ho]; rfl)

/-- Settles O50: the frame of a running operation, and acceptance and the finish as they are. -/
theorem instructionsKeepOtherRegisters : Obligations.InstructionsKeepOtherRegisters := by
  unfold Obligations.InstructionsKeepOtherRegisters
  intro i s t h
  have session (hi : i ≠ .opInit ∨ s.pc.stage ≠ .chk) : t.bound = s.bound ∧ t.pinmap = s.pinmap :=
    exec_session h fun hs => hi.resolve_right (not_not.2 hs)
  obtain ⟨hs, o, rfl⟩ | ⟨hs, rfl⟩ | ⟨hout, -, hf⟩ := exec_frame_cases h
  · simp [hs]
  · simp [hs]
  · have hidle : s.pc.stage ≠ .idle := fun hs => hout (by simp [hs])
    exact ⟨⟨hf.cfg, hf.page, hf.offs, hf.len, hf.sect, hf.cmd, hf.pinIn, hf.src, hf.port⟩, session, fun _ => hf.op,
      fun _ => ⟨hf.busy, hf.done⟩, fun _ => hf.result, fun hi => hf.id (hi.resolve_right hidle),
      fun hi => hf.dst (hi.resolve_right hidle), hf.base, hf.splitter, hf.window⟩

/-- Settles O49: on a bound machine no `init` is in `CHK`, and outside it the session is kept. -/
theorem sessionIsSetOnce : Obligations.SessionIsSetOnce := by
  unfold Obligations.SessionIsSetOnce
  refine ⟨?step, fun s t i h hi => exec_session h fun _ => hi⟩
  case step =>
    intro s t hinv h hb
    obtain ⟨-, -, rfl⟩ | ⟨a, rest, -, -, -, -, rfl⟩ | ⟨a, rest, w, hs, -, -, ht⟩ | ⟨i, -, -, hi, ht⟩ := step_cases h
    · exact ⟨hb, rfl⟩
    · cases a.act <;> exact ⟨hb, rfl⟩
    · obtain ⟨hbound, hpin⟩ := exec_session ht fun hc => by simp [hs] at hc
      exact ⟨hbound.trans hb, hpin⟩
    · obtain ⟨-, -, -, hchk⟩ := hinv.flags
      obtain ⟨hbound, hpin⟩ := exec_session ht fun hs hinit => by
        rw [instrAt_own (by simp [hs]), hinit] at hi
        have ho : s.op = .init := by cases ho : s.op <;> simp [ho, Op.toInstr] at hi ⊢
        simp [hchk hs ho] at hb
      exact ⟨hbound.trans hb, hpin⟩

/-! The run of a command. -/

theorem exec_op_port {i : Instr} {s t : State} (h : exec i s = .next t) (hs : s.pc.stage ≠ .idle) : t.op = s.op ∧ t.port = s.port := by
  obtain ⟨hidle, -⟩ | ⟨-, rfl⟩ | ⟨-, -, hf⟩ := exec_frame_cases h
  · exact absurd hidle hs
  · simp
  · exact ⟨hf.op, hf.port⟩

theorem intrusion_congr {s t : State} (h : t.port = s.port) : t.intrusion = s.intrusion := by
  unfold State.intrusion
  rw [h]

theorem iterate_succ {i : Instr} {s t : State} (h : exec i s = .next t) (k : Nat) : iterate i (k + 1) s = iterate i k t := by
  simp only [iterate, h]

theorem core_run_succ {s given : State} {i : Instr} (h : step s = exec i given) (k : Nat)
    (hk : ∀ t, exec i given = .next t → (Host.Core.run Sys2Proof.core k t : Res) = iterate i k t) :
    (Host.Core.run Sys2Proof.core (k + 1) s : Res) = iterate i (k + 1) given := by
  have hcore : Sys2Proof.core.step s = exec i given := h
  simp only [Host.Core.run, iterate, hcore]
  cases he : exec i given with
  | next t => exact hk t he
  | fault f => rfl
  | refused r => rfl

/-- While an operation runs and no host breaks in, the machine's run is the iteration of the operation. -/
theorem core_run_eq_iterate {o : Op} (k : Nat) : ∀ {s : State}, s.op = o → s.intrusion = none →
    (∀ j u, j < k → iterate o.toInstr j s = .next u → u.pc.stage ≠ .idle) →
    (Host.Core.run Sys2Proof.core k s : Res) = iterate o.toInstr k s := by
  induction k with
  | zero => intro s _ _ _; rfl
  | succ k ih =>
    intro s ho hn hruns
    have hs : s.pc.stage ≠ .idle := hruns 0 s (Nat.succ_pos k) rfl
    refine core_run_succ (ho ▸ step_eq_exec_op hs hn) k fun t ht => ?_
    obtain ⟨hop, hport⟩ := exec_op_port ht hs
    refine ih (hop.trans ho) (intrusion_congr hport ▸ hn) fun j u hj hu => hruns (j + 1) u (Nat.succ_lt_succ hj) ?_
    exact (iterate_succ ht j).trans hu

/-- Settles O11: the first step is the command's acceptance, and from there on the operation runs. -/
theorem runOfACommandFollowsItsInstruction : Obligations.RunOfACommandFollowsItsInstruction := by
  unfold Obligations.RunOfACommandFollowsItsInstruction
  intro s b w rest k hs hp hwaits i given hruns
  refine core_run_succ (step_eq_exec_command hs hp) k fun t ht => ?_
  have haccept : accept (decodeCmd (s.cfg.hold w)) given = .next t := exec_idle (s := given) hs _ ▸ ht
  obtain ⟨-, -, rfl⟩ := accept_cases haccept
  have hn : given.intrusion = none := by
    cases rest with
    | nil => rfl
    | cons a rest =>
      have ha := hwaits a rfl
      simp [State.intrusion, given, ha]
  refine core_run_eq_iterate k rfl hn fun j u hj hu => hruns (j + 1) u (Nat.succ_pos j) hj ?_
  exact (iterate_succ ht j).trans hu

end Sys2Proof.Machine

/-! What the invariant of the machine says of a running operation (`10_state.md` R22 to R30), and where a step of one may go. -/

namespace Sys2Proof.Machine

/-! Frames decode to the instruction they were built for. -/

/-- The address of the three bytes of any number: its low 24 bits (`30_encoding.md` R72). -/
theorem addrOfBytes_lo8 (a : Nat) : addrOfBytes (lo8 (a / 65536)) (lo8 (a / 256)) (lo8 a) = BitVec.ofNat 24 a := by
  apply BitVec.eq_of_toNat_eq
  simp only [addrOfBytes, addrValue, lo8, BitVec.toNat_ofNat]
  omega

theorem decodeFrame_read (a : Nat) : decodeFrame (Opcode.read :: addrBytes a) = .instrs [.read (BitVec.ofNat 24 a)] := by
  rw [← addrOfBytes_lo8]
  rfl

theorem decodeFrame_fread (a : Nat) (x : Byte) :
    decodeFrame (Opcode.fread :: (addrBytes a ++ [x])) = .instrs [.fread (BitVec.ofNat 24 a) x] := by
  rw [← addrOfBytes_lo8]
  rfl

theorem decodeFrame_se (a : Nat) : decodeFrame (Opcode.se :: addrBytes a) = .instrs [.se (BitVec.ofNat 24 a)] := by
  rw [← addrOfBytes_lo8]
  rfl

theorem decodeFrame_pp (a : Nat) {d : List Byte} (hd : 1 ≤ d.length ∧ d.length ≤ Config.pageSize) :
    decodeFrame (Opcode.pp :: (addrBytes a ++ d)) = .instrs [.pp (BitVec.ofNat 24 a) d] := by
  have hpp : decodeFrame (Opcode.pp :: (addrBytes a ++ d)) = decodeProgram (addrBytes a ++ d) := rfl
  rw [hpp, ← addrOfBytes_lo8]
  exact if_pos hd

/-! The positions that `10_state.md` R27 gives an operation. -/

/-- The stages an operation passes through. -/
def Op.allowedAt (o : Op) : Stage → Bool
  | .en | .mut | .dis => Op.gated o
  | .xfer => Op.single o
  | .dly => (delayOf o).isSome
  | .idle | .chk | .fin => true

theorem posInv_iff (s : State) :
    s.posInv ↔ (s.pc.sub = .dash ↔ s.pc.stage.hasTxn = false) ∧ Op.allowedAt s.op s.pc.stage = true ∧
      (s.pc.sub = .rx → s.pc.stage = .xfer ∧ s.opRespLen.isSome = true) := by
  cases h : s.pc.stage <;> simp [State.posInv, h, Op.allowedAt]

theorem Inv.allowed {s : State} (h : Inv s) : Op.allowedAt s.op s.pc.stage = true := by
  obtain ⟨-, hallowed, -⟩ := (posInv_iff s).1 h.pos
  exact hallowed

/-- A working stage of an operation that is no single transaction belongs to the write gate. -/
theorem gate_of_allowedAt {o : Op} {g : Stage} (h : Op.allowedAt o g = true) (hg : g ∉ [Stage.idle, .chk, .fin])
    (ho : Op.single o = false) : g ∈ [Stage.en, .mut, .dly, .dis] := by
  cases g <;> simp_all [Op.allowedAt]

/-- The working stage of a read is its one transaction. -/
theorem xfer_of_allowedAt {o : Op} {g : Stage} (h : Op.allowedAt o g = true) (hg : g ∉ [Stage.idle, .chk, .fin])
    (ho : o ∈ [Op.read, .fastRead]) : g = .xfer := by
  simp only [List.mem_cons, List.not_mem_nil, or_false] at ho
  obtain rfl | rfl := ho <;> cases g <;> simp_all [Op.allowedAt, Op.gated, delayOf]

/-- The response length of the transaction at the position. -/
def State.txnRespLen (s : State) : Option Nat := if s.pc.stage = .xfer then s.opRespLen else none

theorem txnRespLen_isSome_iff (s : State) :
    s.txnRespLen.isSome = true ↔ s.pc.stage = .xfer ∧ s.opRespLen.isSome = true := by
  unfold State.txnRespLen
  split <;> simp_all

theorem opRespLen_congr {s t : State} (hop : t.op = s.op) (hlen : t.len = s.len) : t.opRespLen = s.opRespLen := by
  simp [State.opRespLen, hop, hlen]

theorem Inv.txnRespLen_of_rx {s : State} (h : Inv s) (hb : s.pc.sub = .rx) : s.txnRespLen.isSome = true := by
  obtain ⟨-, -, hrx⟩ := (posInv_iff s).1 h.pos
  exact (txnRespLen_isSome_iff s).2 (hrx hb)

/-- Between the calls of an operation that has not failed, no failure is pending. -/
theorem Inv.pending_ok {s : State} (h : Inv s) (hs : s.pc.stage ∉ [Stage.idle, .fin]) (hb : s.pc.sub ≠ .desel) : s.pending = .ok := by
  by_contra hp
  exact (h.pend hp).elim hs hb

/-! The working registers. -/

/-- The working registers of the running operation, at whatever position (`10_state.md` R24): `rangeInv` without its stages. -/
structure State.InRange (s : State) : Prop where
  write : s.op = .write →
    s.base = s.start ∧ s.endAddr = s.base + s.len ∧ s.endAddr ≤ s.cfg.totalBytes ∧ s.base ≤ s.cur ∧ s.cur < s.endAddr ∧
      s.rem = 256 - s.cur % 256 ∧ s.chunk = min s.rem (s.endAddr - s.cur) ∧ s.len ≤ s.src.length
  reads : s.op ∈ [Op.read, .fastRead] → s.base = s.start ∧ s.base + s.len ≤ s.cfg.totalBytes ∧ s.len ≤ s.dst.length
  eraseSector : s.op = .eraseSector → s.base = s.sectorStart ∧ s.sectorOk = true

theorem State.InRange.rangeInv {s : State} (h : s.InRange) : s.rangeInv :=
  ⟨fun ho _ => h.write ho, fun ho _ => h.reads ho, fun ho _ => h.eraseSector ho⟩

theorem Inv.inRange {s : State} (h : Inv s) (hs : s.pc.stage ∉ [Stage.idle, .chk, .fin]) : s.InRange := by
  obtain ⟨hw, hr, he⟩ := h.range
  have gate (ho : Op.single s.op = false) := gate_of_allowedAt h.allowed hs ho
  exact ⟨fun ho => hw ho (gate (by rw [ho]; rfl)), fun ho => hr ho (xfer_of_allowedAt h.allowed hs ho),
    fun ho => he ho (gate (by rw [ho]; rfl))⟩

/-! The transaction at the position. -/

theorem frame_mut {s : State} (hs : s.pc.stage = .mut) : s.frame = s.mutFrame := by simp [State.frame, hs]

theorem frame_xfer {s : State} (hs : s.pc.stage = .xfer) : s.frame = s.xferFrame := by simp [State.frame, hs]

/-- The chunk of a `write` lies inside `SRC`, so its slice has the chunk's length (`42_page_write.md` R114). -/
theorem State.InRange.srcSlice_length {s : State} (h : s.InRange) (ho : s.op = .write) :
    (s.srcSlice (s.cur - s.base) s.chunk).length = s.chunk := by
  obtain ⟨-, hend, -, hle, -, -, hchunk, hsrc⟩ := h.write ho
  simp only [State.srcSlice, List.length_take, List.length_drop]
  omega

/-- The mutating frame of a gated operation carries one instruction, at an address that exists. -/
theorem State.InRange.mutInstr_exists {s : State} (h : s.InRange) (hcfg : s.cfg.wf) (ho : Op.gated s.op = true) :
    ∃ f i, s.mutFrame = some f ∧ decodeFrame f = .instrs [i] ∧ i.fits s.cfg = true ∧ s.respLen i = none := by
  obtain ⟨-, hmax, -⟩ := hcfg
  have addrFits {a : Nat} (ha : a < s.cfg.totalBytes) : (BitVec.ofNat 24 a).toNat < s.cfg.totalBytes := by
    rwa [BitVec.toNat_ofNat, Nat.mod_eq_of_lt (Nat.lt_of_lt_of_le ha hmax)]
  unfold State.mutFrame
  cases hop : s.op <;> rw [hop] at ho
  case reset | readId | read | fastRead | init => cases ho
  case eraseChip => exact ⟨_, .ce, rfl, rfl, rfl, rfl⟩
  case eraseSector =>
    obtain ⟨hbase, hok⟩ := h.eraseSector hop
    have hsect : s.sect < s.cfg.totalSectors := of_decide_eq_true hok
    have hlt : s.base < s.cfg.totalBytes := by
      rw [hbase]
      exact Nat.mul_lt_mul_of_pos_right hsect (by decide)
    exact ⟨_, _, rfl, decodeFrame_se s.base, decide_eq_true (addrFits hlt), rfl⟩
  case write =>
    obtain ⟨-, -, htotal, -, hlt, hrem, hchunk, -⟩ := h.write hop
    have hpayload : 1 ≤ s.chunk ∧ s.chunk ≤ Config.pageSize := by
      simp only [Config.pageSize]
      omega
    rw [← h.srcSlice_length hop] at hpayload
    exact ⟨_, _, rfl, decodeFrame_pp s.cur hpayload, decide_eq_true (addrFits (by omega)), rfl⟩

/-- The frame of an ungated operation carries an instruction with the operation's response length. -/
theorem xferInstr_exists {s : State} (hs : s.pc.stage = .xfer) (ho : Op.single s.op = true) :
    ∃ i, s.wireInstr = some i ∧ i.fits s.cfg = true ∧ s.respLen i = s.opRespLen := by
  have carries {f : List Byte} {i : Instr} (hf : s.xferFrame = some f) (hd : decodeFrame f = .instrs [i]) : s.wireInstr = some i :=
    wireInstr_of_frame ((frame_xfer hs).trans hf) hd
  have hresp := State.opRespLen.eq_def s
  cases hop : s.op <;> rw [hop] at ho hresp
  case eraseSector | eraseChip | write | init => cases ho
  case reset => exact ⟨_, wireInstr_reset hs hop, by split <;> rfl, by rw [hresp]; split <;> rfl⟩
  case readId => exact ⟨.rdid, carries (f := [Opcode.rdid]) (by simp [State.xferFrame, hop]) rfl, rfl, hresp.symm⟩
  case read => exact ⟨_, carries (by simp [State.xferFrame, hop]) (decodeFrame_read s.base), rfl, hresp.symm⟩
  case fastRead => exact ⟨_, carries (by simp [State.xferFrame, hop]) (decodeFrame_fread s.base s.cfg.dummy), rfl, hresp.symm⟩

/-- Under the invariant the position of a transaction carries an instruction whose address exists, with the operation's response
length. -/
theorem Inv.wireInstr_exists {s : State} (h : Inv s) (hs : s.pc.stage.hasTxn = true) :
    ∃ i, s.wireInstr = some i ∧ i.fits s.cfg = true ∧ s.respLen i = s.txnRespLen := by
  have hallowed := h.allowed
  have hnone : s.pc.stage ≠ .xfer → s.txnRespLen = none := fun hne => if_neg hne
  cases hg : s.pc.stage <;> rw [hg] at hs hallowed
  case idle | chk | dly | fin => cases hs
  case en =>
    have hf : s.frame = some [Opcode.wren] := by simp [State.frame, hg]
    exact ⟨.wren, wireInstr_of_frame hf rfl, rfl, (hnone (by simp [hg])).symm⟩
  case dis =>
    have hf : s.frame = some [Opcode.wrdi] := by simp [State.frame, hg]
    exact ⟨.wrdi, wireInstr_of_frame hf rfl, rfl, (hnone (by simp [hg])).symm⟩
  case xfer =>
    have hlen : s.txnRespLen = s.opRespLen := if_pos hg
    exact hlen ▸ xferInstr_exists hg hallowed
  -- `MUT` remains, whose name is a keyword of Lean
  next =>
    obtain ⟨f, i, hf, hd, hfits, hresp⟩ := (h.inRange (by simp [hg])).mutInstr_exists h.cfg hallowed
    exact ⟨i, wireInstr_of_frame ((frame_mut hg).trans hf) hd, hfits, hresp.trans (hnone (by simp [hg])).symm⟩

/-- Under the invariant the step of a transaction stage is one of a transaction with the operation's response length. -/
theorem Inv.wireStep_eq_txnStep {s : State} (h : Inv s) (hs : s.pc.stage.hasTxn = true) :
    ∃ f, wireStep s = txnStep f s.txnRespLen s := by
  obtain ⟨i, hi, hfits, hlen⟩ := h.wireInstr_exists hs
  exact ⟨frameBytes i, by rw [wireStep_eq hi, exec_wire (wireInstr_isWire hi) hfits, hlen]⟩

/-! Where a step of a running operation may go. -/

theorem PortStep.flash_wf {f : State → Res} {s t : State} (h : PortStep f s t) (hf : f s = .next t) (hw : s.dev.flash.wf) :
    t.dev.flash.wf := by
  cases h with
  | blind evs _ run =>
    have ht : t = t.behind _ _ := Host.Outcome.next.inj (hf.symm.trans (run s.dev s.trace))
    have hdev : t.dev = s.dev.play s.cfg evs := congrArg State.dev ht
    exact hdev ▸ play_wf s.cfg evs hw
  | receive n _ ends _ =>
    rw [ends, s.receive_eq_behind n]
    exact onEvent_wf s.cfg _ hw

/-- A step from a state that meets the invariant, while an operation runs. -/
structure RunStep (s t : State) : Prop where
  inv : Inv s
  out : s.pc.stage ∉ [Stage.idle, .fin]
  frame : RunFrame s t
  mem : t.dev.flash.wf

/-- What such a step need not be asked again: the configuration, the widths, the flags and the array. -/
theorem RunStep.keeps {s t : State} (h : RunStep s t) (hstage : t.pc.stage ∉ [Stage.idle, .chk]) (pos : t.posInv) (sel : t.selInv)
    (pend : t.pendInv) (range : t.rangeInv) (resp : t.respInv) : Inv t := by
  obtain ⟨hinv, hout, hf, hmem⟩ := h
  obtain ⟨hbusy, hdone, hbound, -⟩ := hinv.flags
  have hrun : s.busy = true := hbusy.2 fun hs => hout (by simp [hs])
  have hidle : t.pc.stage ≠ .idle := fun hs => hstage (by simp [hs])
  have hchk : t.pc.stage ≠ .chk := fun hs => hstage (by simp [hs])
  refine ⟨hf.cfg ▸ hinv.cfg, ?width, pos, ⟨?busy, ?done, ?bound, fun hs => absurd hs hchk⟩, sel, pend, range, resp, hmem⟩
  case width => simpa only [State.widthInv, hf.cfg, hf.page, hf.offs, hf.len, hf.sect, hf.cmd] using hinv.width
  case busy => simp [hf.busy, hrun, hidle]
  case done => simpa only [hf.busy, hf.done] using hdone
  case bound =>
    intro _ ho
    rw [hf.op] at ho
    obtain ⟨hkept, -⟩ := hf.session (.inl ho)
    exact hkept.trans (hbound hrun ho)

/-- To `(FIN,-)`, whatever the result. -/
theorem RunStep.ends {s t : State} (h : RunStep s t) (hpc : t.pc = ⟨.fin, .dash⟩)
    (hsel : s.cfg.deselectOnFail = true → t.selected = false) : Inv t := by
  refine h.keeps (by simp [hpc]) ((posInv_iff t).2 ?_) ⟨by simp [hpc], fun hd _ => hsel (h.frame.cfg ▸ hd)⟩ ?_ ?_ ?_
  · simp [hpc, Stage.hasTxn, Op.allowedAt]
  · exact fun _ => .inl (by simp [hpc])
  · simp [State.rangeInv, hpc]
  · simp [State.respInv, hpc]

/-- To the Select of a transaction or to the delay. -/
theorem RunStep.goesOn {s t : State} {g : Stage} {b : Sub} (h : RunStep s t) (hpc : t.pc = ⟨g, b⟩)
    (hgb : g.hasTxn = true ∧ b = .sel ∨ g = .dly ∧ b = .dash) (hop : Op.allowedAt s.op g = true)
    (hsel : s.cfg.deselectOnFail = true → t.selected = false) (hpend : t.pending = .ok) (hrange : t.InRange) : Inv t := by
  have hg : t.pc.stage ∉ [Stage.idle, .chk] := by
    obtain ⟨hg, -⟩ | ⟨rfl, -⟩ := hgb
    · obtain ⟨hidle, hchk, -, -⟩ := hasTxn_ne hg
      simp [hpc, hidle, hchk]
    · simp [hpc]
  have hb : b ∉ [Sub.tx, .rx, .desel] := by obtain ⟨-, rfl⟩ | ⟨-, rfl⟩ := hgb <;> simp
  refine h.keeps hg ((posInv_iff t).2 ⟨?_, ?_, ?_⟩) ⟨?_, fun hd _ => hsel (h.frame.cfg ▸ hd)⟩ ?_ hrange.rangeInv ?_
  · obtain ⟨hg, rfl⟩ | ⟨rfl, rfl⟩ := hgb <;> simp_all [Stage.hasTxn]
  · rw [hpc, h.frame.op]
    exact hop
  · intro hrx
    simp_all
  · intro hwin
    rw [hpc] at hwin
    exact absurd hwin hb
  · exact fun hne => absurd hpend hne
  · intro _ hd
    simp_all

/-- To the next call of the same transaction. -/
theorem RunStep.staysInWindow {s t : State} {b : Sub} (h : RunStep s t) (hs : s.pc.stage.hasTxn = true)
    (hpc : t.pc = ⟨s.pc.stage, b⟩) (hb : b ∈ [Sub.tx, .rx, .desel]) (hsel : t.selected = true) (hrange : t.InRange)
    (hrx : b = .rx → s.txnRespLen.isSome = true) (hpend : b ≠ .desel → t.pending = .ok)
    (hresp : b = .desel → t.pending = .ok → ∀ n ∈ s.txnRespLen, t.resp.length = n) : Inv t := by
  have hlen : t.opRespLen = s.opRespLen := opRespLen_congr h.frame.op h.frame.len
  obtain ⟨hidle, hchk, -, -⟩ := hasTxn_ne hs
  have hg : t.pc.stage ∉ [Stage.idle, .chk] := by simp [hpc, hidle, hchk]
  have hb' : b ∉ [Sub.sel, .dash] := by
    simp only [List.mem_cons, List.not_mem_nil, or_false] at hb
    obtain rfl | rfl | rfl := hb <;> simp
  refine h.keeps hg ((posInv_iff t).2 ⟨?_, ?_, ?_⟩) ⟨fun _ => hsel, ?_⟩ ?_ hrange.rangeInv ?_
  · rw [hpc]
    simp_all
  · rw [hpc, h.frame.op]
    exact h.inv.allowed
  · intro hd
    rw [hpc] at hd ⊢
    rw [hlen]
    exact (txnRespLen_isSome_iff s).1 (hrx hd)
  · intro _ hd
    rw [hpc] at hd
    exact absurd hd hb'
  · intro hne
    right
    rw [hpc]
    by_contra hd
    exact hne (hpend hd)
  · intro hx hd hp n hn
    rw [hpc] at hx hd
    exact hresp hd hp n (by rw [State.txnRespLen, if_pos hx, ← hlen]; exact hn)

end Sys2Proof.Machine

/-! The invariant along each step (`10_state.md` R27). -/

namespace Sys2Proof.Machine

/-- A transaction or a delay that leaves the splitter and `DST` alone leaves the working registers in range. -/
theorem RunStep.inRange {s t : State} (h : RunStep s t) (hs : s.pc.stage ≠ .chk)
    (hsplitter : t.cur = s.cur ∧ t.rem = s.rem ∧ t.chunk = s.chunk) (hdst : t.dst = s.dst) : t.InRange := by
  obtain ⟨hinv, hout, hf, -⟩ := h
  obtain ⟨hcur, hrem, hchunk⟩ := hsplitter
  obtain ⟨hbase, hend⟩ := hf.base hs
  obtain ⟨hw, hr, he⟩ := hinv.inRange (by simp_all)
  have hstart : t.start = s.start := by simp only [State.start, hf.page, hf.offs]
  have hsector : t.sectorStart = s.sectorStart := by simp only [State.sectorStart, hf.sect]
  have hok : t.sectorOk = s.sectorOk := by simp only [State.sectorOk, hf.sect, hf.cfg]
  refine ⟨?write, ?reads, ?eraseSector⟩ <;> rw [hf.op, hbase]
  case write => rwa [hend, hcur, hrem, hchunk, hstart, hf.cfg, hf.len, hf.src]
  case reads => rwa [hstart, hf.cfg, hf.len, hdst]
  case eraseSector => rwa [hsector, hok]

/-- An operation with no working register has none out of range. -/
theorem inRange_of_noRegister {s : State} (ho : s.op ∈ [Op.reset, .readId, .eraseChip]) : s.InRange := by
  simp only [List.mem_cons, List.not_mem_nil, or_false] at ho
  obtain ho | ho | ho := ho <;> constructor <;> simp [ho]

/-- An abort keeps the invariant where `SELECTED` has fallen or nobody deselects after a failure. -/
theorem RunStep.raises {s u : State} {r : Result} (h : RunStep s (u.raise r))
    (hsel : s.cfg.deselectOnFail = true → u.selected = false) : Inv (u.raise r) :=
  h.ends rfl (by simpa using hsel)

/-- A return with `Ok` keeps it where `SELECTED` has fallen. -/
theorem RunStep.completes {s u : State} (h : RunStep s u.complete) (hsel : s.cfg.deselectOnFail = true → u.selected = false) :
    Inv u.complete :=
  h.ends rfl (by simpa using hsel)

/-- A failed call leads to the Deselect with the failure pending, or to the abort. -/
theorem RunStep.failsCall {s : State} {e : Event} {k : ErrKind} (h : RunStep s ((s.emit e).dropAnswer.failCall k))
    (hs : s.pc.stage.hasTxn = true) (hsel : s.selected = true) : Inv ((s.emit e).dropAnswer.failCall k) := by
  obtain ⟨-, hchk, -, -⟩ := hasTxn_ne hs
  obtain hf | ⟨hd, hf⟩ := failCall_cases (s.emit e).dropAnswer k <;> rw [hf] at h ⊢
  · exact h.staysInWindow hs rfl (by simp) hsel (h.inRange hchk (by simp) (by simp)) (by simp) (by simp)
      fun _ hp => absurd hp (translate_ne_ok k)
  · exact h.raises fun hd' => by simp [hd'] at hd

/-- The chunk after the current one lies in the request as well (`42_page_write.md` R115). -/
theorem RunStep.nextChunk {s t : State} (h : RunStep s t) (hs : s.pc.stage = .dis) (ho : s.op = .write)
    (hlt : s.cur + s.chunk < s.endAddr) (hcur : t.cur = s.cur + s.chunk) (hrem : t.rem = 256)
    (hchunk : t.chunk = min 256 (s.endAddr - (s.cur + s.chunk))) : t.InRange := by
  obtain ⟨hinv, -, hf, -⟩ := h
  obtain ⟨hbase, hend⟩ := hf.base (by simp [hs])
  obtain ⟨hstart, hendAddr, htotal, hle, -, hrem', hchunk', hsrc⟩ := (hinv.inRange (by simp [hs])).write ho
  have hstart' : t.start = s.start := by simp only [State.start, hf.page, hf.offs]
  refine ⟨fun _ => ?_, by simp [hf.op, ho], by simp [hf.op, ho]⟩
  rw [hstart', hbase, hend, hcur, hrem, hchunk, hf.cfg, hf.len, hf.src]
  exact ⟨hstart, hendAddr, htotal, by omega, hlt, by omega, rfl, hsrc⟩

/-- What follows the Deselect of a transaction keeps the invariant. -/
theorem RunStep.deselects {s t : State} (h : RunStep s t) (hs : s.pc.stage.hasTxn = true) (ht : afterTxn s.deselect = .next t) :
    Inv t := by
  obtain ⟨-, hchk, -, -⟩ := hasTxn_ne hs
  have hallowed := h.inv.allowed
  obtain ⟨-, rfl⟩ | ⟨hp, ⟨hg, rfl⟩ | ⟨hg, rfl⟩ | ⟨hg, ho, rfl⟩ | ⟨-, -, rfl⟩ | ⟨-, -, rfl⟩ | ⟨-, -, rfl⟩ | ⟨hg, ho, rfl⟩⟩ :=
    afterTxn_cases ht
  · exact h.raises fun _ => rfl
  · rw [State.deselect_pc] at hg
    rw [hg] at hallowed
    exact h.goesOn rfl (.inl ⟨rfl, rfl⟩) hallowed (fun _ => rfl) hp (h.inRange hchk (by simp) (by simp))
  · rw [State.deselect_pc] at hg
    rw [hg] at hallowed
    exact h.goesOn rfl (.inr ⟨rfl, rfl⟩) (by cases ho : s.op <;> rw [ho] at hallowed <;> trivial) (fun _ => rfl) hp
      (h.inRange hchk (by simp) (by simp))
  · rw [State.deselect_op] at ho
    exact h.goesOn rfl (.inr ⟨rfl, rfl⟩) (by rw [ho]; rfl) (fun _ => rfl) hp (h.inRange hchk (by simp) (by simp))
  · obtain he | he := endReadId_cases s.deselect <;> rw [he] at h ⊢
    · exact h.raises fun _ => rfl
    · exact h.completes fun _ => rfl
  · exact h.completes fun _ => rfl
  · exact h.completes fun _ => rfl
  · obtain ⟨hlt, he⟩ | he := loopTest_cases s.deselect.advance <;> rw [he] at h ⊢
    · rw [State.deselect_op] at ho
      exact h.goesOn rfl (.inl ⟨rfl, rfl⟩) (by rw [ho]; rfl) (fun _ => rfl) hp (h.nextChunk hg ho hlt rfl rfl rfl)
    · exact h.completes fun _ => rfl

/-- A step of the transaction at the position keeps the invariant. -/
theorem Inv.after_txnStep {s t : State} {f : List Byte} (h : Inv s) (ht : txnStep f s.txnRespLen s = .next t) : Inv t := by
  obtain ⟨hs, hcall⟩ := txnStep_cases ht
  obtain ⟨hidle, hchk, -, hfin⟩ := hasTxn_ne hs
  have hrun : s.pc.stage ∉ [Stage.idle, .fin] := by simp [hidle, hfin]
  have run : RunStep s t := ⟨h, hrun, txnStep_frame ht, (txnStep_portStep ht).flash_wf ht h.mem⟩
  obtain ⟨hopen, -⟩ := h.sel
  obtain ⟨hb, rfl⟩ | ⟨hb, rfl⟩ | ⟨m, hm, hb, rfl⟩ | ⟨-, hd⟩ := hcall
  · exact run.staysInWindow hs rfl (by simp) rfl (run.inRange hchk (by simp) (by simp)) (by simp)
      (fun _ => h.pending_ok hrun (by simp [hb])) (by simp)
  · obtain he | ⟨e, k, he⟩ := transmit_cases s f s.txnRespLen.isSome <;> rw [he] at run ⊢
    · refine run.staysInWindow hs rfl ?_ (hopen (by simp [hb])) (run.inRange hchk (by simp) (by simp)) ?_
        (fun _ => h.pending_ok hrun (by simp [hb])) ?_
      · split <;> simp
      · split <;> simp_all
      · split
        · simp
        · next hnone =>
          intro _ _ n hn
          simp [Option.mem_def.1 hn] at hnone
    · exact run.failsCall hs (hopen (by simp [hb]))
  · obtain ⟨bytes, hlen, he⟩ | ⟨e, k, he⟩ := receive_cases s m <;> rw [he] at run ⊢
    · refine run.staysInWindow hs rfl (by simp) (hopen (by simp [hb])) (run.inRange hchk (by simp) (by simp)) (by simp) (by simp)
        fun _ _ n hn => ?_
      rw [hm, Option.mem_some] at hn
      exact hlen.trans hn
    · exact run.failsCall hs (hopen (by simp [hb]))
  · exact run.deselects hs hd

/-- Outside a transaction no call is under way. -/
theorem Inv.sub_of_noTxn {s : State} (h : Inv s) (hs : s.pc.stage.hasTxn = false) : s.pc.sub = .dash := by
  obtain ⟨hdash, -⟩ := h.pos
  exact hdash.2 hs

theorem Inv.closed_of_noTxn {s : State} (h : Inv s) (hs : s.pc.stage.hasTxn = false) (hd : s.cfg.deselectOnFail = true) :
    s.selected = false := by
  obtain ⟨-, hclosed⟩ := h.sel
  exact hclosed hd (by simp [h.sub_of_noTxn hs])

/-- A delay keeps the invariant. -/
theorem Inv.after_delayStep {s t : State} (h : Inv s) (hs : s.pc.stage = .dly) (ht : delayStep s = .next t) : Inv t := by
  have hnoTxn : s.pc.stage.hasTxn = false := by rw [hs]; rfl
  have hsub := h.sub_of_noTxn hnoTxn
  have hclosed := h.closed_of_noTxn hnoTxn
  have hout : s.pc.stage ∉ [Stage.idle, .fin] := by simp [hs]
  have run : RunStep s t := ⟨h, hout, delayStep_frame ht, (delayStep_portStep ht).flash_wf ht h.mem⟩
  obtain ⟨d, hdelay, ⟨-, rfl⟩ | ⟨ho, rfl⟩⟩ := delayStep_cases ht
  · exact run.completes hclosed
  · have hgated : Op.gated s.op = true := by
      cases hop : s.op <;> simp_all [delayOf, Op.gated]
    exact run.goesOn rfl (.inl ⟨rfl, rfl⟩) hgated hclosed (h.pending_ok hout (by simp [hsub]))
      (run.inRange (by simp [hs]) (by simp) (by simp))

/-- A check keeps the invariant: it writes the registers that its operation works with, or raises. -/
theorem Inv.after_opCheck {s t : State} (h : Inv s) (hs : s.pc.stage = .chk) (ht : opCheck s.op s = .next t) : Inv t := by
  have hclosed := h.closed_of_noTxn (by rw [hs]; rfl)
  have hout : s.pc.stage ∉ [Stage.idle, .fin] := by simp [hs]
  have hp : s.pending = .ok := h.pending_ok hout (by simp [h.sub_of_noTxn (by rw [hs]; rfl)])
  have run : RunStep s t := ⟨h, hout, opCheck_frame hs ht, (opCheck_portStep ht).flash_wf ht h.mem⟩
  cases ho : s.op <;> rw [ho] at ht
  case reset | readId | eraseChip =>
    cases ht
    exact run.goesOn rfl (.inl ⟨rfl, rfl⟩) (by rw [ho]; rfl) hclosed hp (inRange_of_noRegister (by simp [ho]))
  case init =>
    cases ht
    exact run.completes hclosed
  case read | fastRead =>
    obtain ⟨hrange, hroom, rfl⟩ | ⟨-, rfl⟩ := checkRead_cases ht
    · refine run.goesOn rfl (.inl ⟨rfl, rfl⟩) (by rw [ho]; rfl) hclosed hp ⟨?_, fun _ => ⟨rfl, of_decide_eq_true hrange, hroom⟩, ?_⟩ <;>
        simp [ho]
    · exact run.raises hclosed
  case eraseSector =>
    obtain ⟨hsector, rfl⟩ | ⟨-, rfl⟩ := checkEraseSector_cases ht
    · refine run.goesOn rfl (.inl ⟨rfl, rfl⟩) (by rw [ho]; rfl) hclosed hp ⟨?_, ?_, fun _ => ⟨rfl, hsector⟩⟩ <;> simp [ho]
    · exact run.raises hclosed
  case write =>
    obtain ⟨hrange, hroom, rfl⟩ | ⟨-, rfl⟩ := checkWrite_cases ht
    · obtain ⟨hlt, he⟩ | he := loopTest_cases s.startWrite <;> rw [he] at run ⊢
      · refine run.goesOn rfl (.inl ⟨rfl, rfl⟩) (by rw [ho]; rfl) hclosed hp
          ⟨fun _ => ⟨rfl, rfl, of_decide_eq_true hrange, Nat.le_refl _, hlt, rfl, rfl, hroom⟩, ?_, ?_⟩ <;> simp [ho]
      · exact run.completes hclosed
    · exact run.raises hclosed

/-- The finish keeps the invariant. -/
theorem Inv.after_finish {s : State} (h : Inv s) (hs : s.pc.stage = .fin) : Inv s.finish := by
  have hclosed := h.closed_of_noTxn (by rw [hs]; rfl)
  refine ⟨h.cfg, h.width, (posInv_iff _).2 ?_, ?_, ⟨by simp, fun hd _ => hclosed hd⟩, fun _ => .inl (by simp), ?_, ?_, h.mem⟩
  · simp [Stage.hasTxn, Op.allowedAt]
  · simp [State.flagInv]
  · simp [State.rangeInv]
  · simp [State.respInv]

/-- Acceptance keeps the invariant (`10_state.md` R23). -/
theorem Inv.after_accept {s t : State} {o : Op} (h : Inv s) (hs : s.pc.stage = .idle) (ht : accept o s = .next t) : Inv t := by
  obtain ⟨-, hbound, rfl⟩ := accept_cases ht
  have hclosed := h.closed_of_noTxn (by rw [hs]; rfl)
  have hinit : o = .init → s.bound = false := fun ho => Bool.eq_false_iff.2 fun hb => hbound.1 hb ho
  refine ⟨h.cfg, h.width, (posInv_iff _).2 ?_, ⟨by simp, by simp, fun _ => hbound.2, fun _ => hinit⟩,
    ⟨by simp, fun hd _ => hclosed hd⟩, fun hp => absurd rfl hp, ?_, ?_, h.mem⟩
  · simp [Stage.hasTxn, Op.allowedAt]
  · simp [State.rangeInv]
  · simp [State.respInv]

/-- A host write keeps the widths: what it writes is cut to `OPW` bits (`10_state.md` R22, log 10). -/
theorem hostWrite_widthInv {s : State} (h : s.widthInv) (a : HostAct) : (hostWrite a s).widthInv := by
  have hold (v : Nat) : s.cfg.hold v < 2 ^ s.cfg.opw := Params.hold_lt s.cfg v
  simp only [State.widthInv, List.mem_cons, List.not_mem_nil, or_false, forall_eq_or_imp, forall_eq] at h ⊢
  obtain ⟨hpage, hoffs, hlen, hsect, hcmd⟩ := h
  cases a with
  | setPage v => exact ⟨hold v, hoffs, hlen, hsect, hcmd⟩
  | setOffs v => exact ⟨hpage, hold v, hlen, hsect, hcmd⟩
  | setLen v => exact ⟨hpage, hoffs, hold v, hsect, hcmd⟩
  | setSect v => exact ⟨hpage, hoffs, hlen, hold v, hcmd⟩
  | writeCmd w => exact ⟨hpage, hoffs, hlen, hsect, hold w⟩
  | setPinIn | setSrc | setDst => exact ⟨hpage, hoffs, hlen, hsect, hcmd⟩

theorem Inv.after_popPort {s : State} (h : Inv s) : Inv s.popPort :=
  ⟨h.cfg, h.width, h.pos, h.flags, h.sel, h.pend, h.range, h.resp, h.mem⟩

/-- A host write in `IDLE` keeps the invariant: what it writes belongs to no running operation (`10_state.md` R22). -/
theorem Inv.after_hostWrite {s : State} (h : Inv s) (hs : s.pc.stage = .idle) (a : HostAct) : Inv (hostWrite a s) := by
  have hpc : (hostWrite a s).pc = s.pc := by cases a <;> rfl
  have hsub : s.pc.sub = .dash := h.sub_of_noTxn (by rw [hs]; rfl)
  have hpos : (hostWrite a s).posInv := (posInv_iff _).2 (by rw [hpc, hs, hsub]; simp [Stage.hasTxn, Op.allowedAt])
  have hrange : (hostWrite a s).rangeInv := by simp [State.rangeInv, hpc, hs]
  have hresp : (hostWrite a s).respInv := by simp [State.respInv, hpc, hs]
  have hwidth := hostWrite_widthInv h.width a
  cases a <;> exact ⟨h.cfg, hwidth, hpos, h.flags, h.sel, h.pend, hrange, hresp, h.mem⟩

/-- Settles O45, by the kind of the step. -/
theorem everyStepKeepsTheInvariant : Obligations.EveryStepKeepsTheInvariant := by
  unfold Obligations.EveryStepKeepsTheInvariant
  intro s t h hstep
  obtain ⟨-, -, rfl⟩ | ⟨a, rest, hs, -, -, -, rfl⟩ | ⟨a, rest, w, hs, hp, ha, -⟩ | ⟨i, hs, hn, -, -⟩ := step_cases hstep
  · exact h
  · exact h.after_popPort.after_hostWrite hs a.act
  · rw [step_command hs hp ha] at hstep
    exact (h.after_popPort.after_hostWrite hs a.act).after_accept (by rw [ha]; exact hs) hstep
  · rw [step_eq_exec_op hs hn] at hstep
    cases hg : s.pc.stage
    case idle => exact absurd hg hs
    case chk => exact h.after_opCheck hg (exec_chk hg ▸ hstep)
    case dly => exact h.after_delayStep hg (exec_dly hg ▸ hstep)
    case fin =>
      rw [exec_fin hg] at hstep
      cases hstep
      exact h.after_finish hg
    -- the four transaction stages remain
    all_goals
      have htxn : s.pc.stage.hasTxn = true := by rw [hg]; rfl
      obtain ⟨f, hf⟩ := h.wireStep_eq_txnStep htxn
      rw [exec_txn htxn, hf] at hstep
      exact h.after_txnStep hstep

end Sys2Proof.Machine

/-! No step faults (`10_state.md` R27, `30_encoding.md` R79). -/

namespace Sys2Proof.Machine

/-- The refusals that a host brings about by breaking a duty. -/
abbrev dutyRefusals : List Refusal :=
  [.commandWhileBusy, .notInitialised, .secondInit, .hostAccessWhileBusy, .srcTooShort, .dstTooShort]

/-- The machine has a step, or the host has broken a duty. -/
def Res.lawful (r : Res) : Prop := (∃ t, r = .next t) ∨ ∃ q ∈ dutyRefusals, r = .refused q

theorem Res.lawful_next (t : State) : Res.lawful (.next t) := .inl ⟨t, rfl⟩

theorem Res.lawful_refused {q : Refusal} (hq : q ∈ dutyRefusals) : Res.lawful (.refused q) := .inr ⟨q, hq, rfl⟩

theorem refusalOf_mem (a : HostAct) : refusalOf a ∈ dutyRefusals := by
  cases a <;> simp [refusalOf]

theorem accept_lawful (o : Op) (s : State) : Res.lawful (accept o s) := by
  unfold accept
  split
  · exact Res.lawful_refused (by decide)
  · split
    · split
      · exact Res.lawful_refused (by decide)
      · exact Res.lawful_next _
    · split
      · exact Res.lawful_next _
      · exact Res.lawful_refused (by decide)

theorem opCheck_lawful (o : Op) (s : State) : Res.lawful (opCheck o s) := by
  cases o with
  | reset | readId | eraseChip | init => exact Res.lawful_next _
  | read | fastRead =>
    simp only [opCheck, checkRead]
    split
    · split
      · exact Res.lawful_next _
      · exact Res.lawful_refused (by decide)
    · exact Res.lawful_next _
  | eraseSector =>
    simp only [opCheck, checkEraseSector]
    split <;> exact Res.lawful_next _
  | write =>
    simp only [opCheck, checkWrite]
    split
    · split
      · exact Res.lawful_next _
      · exact Res.lawful_refused (by decide)
    · exact Res.lawful_next _

/-- After the Deselect of a transaction `10_state.md` R27 has a row for every operation that comes there. -/
theorem afterTxn_next {s : State} (hs : s.pc.stage.hasTxn = true) (ho : Op.allowedAt s.op s.pc.stage = true) :
    ∃ t, afterTxn s = .next t := by
  by_cases hp : s.pending = .ok
  · cases hg : s.pc.stage <;> rw [hg] at hs ho
    case idle | chk | dly | fin => cases hs
    case xfer => cases hop : s.op <;> simp [afterTxn, afterXfer, hp, hg, hop] <;> simp [hop, Op.allowedAt, Op.single] at ho
    case dis => cases hop : s.op <;> simp [afterTxn, afterDisable, hp, hg, hop] <;> simp [hop, Op.allowedAt, Op.gated] at ho
    -- `EN` and `MUT` remain, where every operation goes on alike
    all_goals simp [afterTxn, hp, hg]
  · exact ⟨_, if_pos hp⟩

/-- Under the invariant the transaction at the position has a next call. -/
theorem Inv.txnStep_next {s : State} (h : Inv s) (hs : s.pc.stage.hasTxn = true) (f : List Byte) :
    ∃ t, txnStep f s.txnRespLen s = .next t := by
  cases hb : s.pc.sub with
  | sel => exact ⟨_, txnStep_sel hs hb _ _⟩
  | tx => exact ⟨_, txnStep_tx hs hb _ _⟩
  | rx =>
    obtain ⟨n, hn⟩ := Option.isSome_iff_exists.1 (h.txnRespLen_of_rx hb)
    exact ⟨_, hn ▸ txnStep_rx hs hb f n⟩
  | desel =>
    rw [txnStep_desel hs hb]
    exact afterTxn_next hs h.allowed
  | dash =>
    obtain ⟨hdash, -⟩ := h.pos
    rw [hdash.1 hb] at hs
    cases hs

/-- Under the invariant the running operation has a step, or finds a buffer too short. -/
theorem Inv.exec_op_lawful {s : State} (h : Inv s) (hs : s.pc.stage ≠ .idle) : Res.lawful (exec s.op.toInstr s) := by
  cases hg : s.pc.stage
  case idle => exact absurd hg hs
  case chk => exact exec_chk hg ▸ opCheck_lawful s.op s
  case dly =>
    have hallowed := h.allowed
    rw [hg] at hallowed
    obtain ⟨d, hd⟩ := Option.isSome_iff_exists.1 hallowed
    rw [exec_dly hg, delayStep_eq hd]
    exact Res.lawful_next _
  case fin => exact exec_fin hg ▸ Res.lawful_next _
  -- the four transaction stages remain
  all_goals
    have htxn : s.pc.stage.hasTxn = true := by rw [hg]; rfl
    obtain ⟨f, hf⟩ := h.wireStep_eq_txnStep htxn
    rw [exec_txn htxn, hf]
    exact .inl (h.txnStep_next htxn f)

/-- Under the invariant the machine has a step, or the host has broken a duty. -/
theorem Inv.step_lawful {s : State} (h : Inv s) : Res.lawful (step s) := by
  by_cases hs : s.pc.stage = .idle
  · cases hp : s.port with
    | nil => exact step_wait hs hp ▸ Res.lawful_next s
    | cons a rest =>
      by_cases ha : ∃ w, a.act = .writeCmd w
      · obtain ⟨w, ha⟩ := ha
        exact step_command hs hp ha ▸ accept_lawful _ _
      · obtain ⟨hbusy, -⟩ := h.flags
        have hb : s.busy = false := Bool.eq_false_iff.2 fun hb => hbusy.1 hb hs
        exact step_hostWrite hs hp hb (fun w hw => ha ⟨w, hw⟩) ▸ Res.lawful_next _
  · cases hn : s.intrusion with
    | some a => exact step_intruded hs hn ▸ Res.lawful_refused (refusalOf_mem a)
    | none => exact step_eq_exec_op hs hn ▸ h.exec_op_lawful hs

/-- Settles O46: a lawful step is no fault, and its refusals are the host's. -/
theorem noStepFaults : Obligations.NoStepFaults := by
  unfold Obligations.NoStepFaults
  refine ⟨fun s f h hf => ?_, fun s r h hr => ?_⟩ <;> obtain ⟨t, ht⟩ | ⟨q, hq, ht⟩ := h.step_lawful
  · cases hf.symm.trans ht
  · cases hf.symm.trans ht
  · cases hr.symm.trans ht
  · cases hr.symm.trans ht
    exact hq

end Sys2Proof.Machine

/-! What the array of a device reads as after an event (`20_memory.md` R48, R61 to R64). -/

namespace Sys2Proof.Machine

/-! The frames of the mutating instructions, as a device sees them. -/

theorem winFrame_program (a2 a1 a0 : Byte) {data : List Byte} (hd : data ≠ []) :
    winFrame (Opcode.pp :: a2 :: a1 :: a0 :: data) = .program (addrValue a2 a1 a0) data := by
  cases data with
  | nil => exact absurd rfl hd
  | cons b rest => rfl

/-- A window that begins with a mutating opcode holds a mutating frame, or nothing. -/
theorem winFrame_mutates {w : List Byte} (hw : frameMutates w = true) (hf : winFrame w ≠ .nothing) : (winFrame w).mutates = true := by
  cases w with
  | nil => cases hw
  | cons op rest =>
    have hop : op = Opcode.pp ∨ op = Opcode.se ∨ op = Opcode.ce := of_decide_eq_true hw
    unfold winFrame at hf ⊢
    obtain rfl | rfl | rfl := hop <;> (repeat' split) <;> simp_all [WinFrame.mutates]

/-! The effects of a frame on the array. -/

/-- A complete frame that does not mutate keeps the array. -/
theorem execute_flash_of_not_mutates {f : WinFrame} (hf : f.mutates = false) (d : Device) (p : Params) :
    (d.execute p f).flash = d.flash := by
  unfold Device.execute
  rw [if_neg (by simp [hf])]
  split <;> rfl

/-- With the latch clear no frame changes the array (`20_memory.md` R62). -/
theorem execute_flash_of_latch_clear {d : Device} (hw : d.wel = false) (p : Params) (f : WinFrame) : (d.execute p f).flash = d.flash := by
  cases hf : f.mutates with
  | false => exact execute_flash_of_not_mutates hf d p
  | true => simp [Device.execute, hf, hw]

theorem execute_of_mutates {d : Device} {f : WinFrame} (hf : f.mutates = true) (hw : d.wel = true) (p : Params) :
    d.execute p f =
      { d with flash := mutated d.kind p d.draws f d.flash, wel := false, draws := d.draws + 1, busy := d.kind.hasBusy } := by
  simp [Device.execute, hf, hw]

theorem indeterminate_of_mutates {f : WinFrame} (hf : f.mutates = true) (d : Device) (p : Params) :
    d.indeterminate p f =
      { d with flash := d.flash.makeUnknown (targetLo f) (targetHi p f) d.draws, wel := Config.freeWel d.draws,
               busy := d.busy || Config.freeBusy d.draws, draws := d.draws + 1 } := by
  simp [Device.indeterminate, hf]

theorem indeterminate_flash_of_not_mutates {f : WinFrame} (hf : f.mutates = false) (d : Device) (p : Params) :
    (d.indeterminate p f).flash = d.flash := by
  unfold Device.indeterminate
  rw [if_neg (by simp [hf])]
  (repeat' split) <;> rfl

/-- A complete frame stores inside its target range only. -/
theorem read_execute_other {f : WinFrame} {x : Nat} (d : Device) (p : Params)
    (h : f.mutates = true → ¬(targetLo f ≤ x ∧ x < targetHi p f)) : (d.execute p f).flash.read x = d.flash.read x := by
  cases hf : f.mutates with
  | false => rw [execute_flash_of_not_mutates hf]
  | true =>
    cases hw : d.wel with
    | false => rw [execute_flash_of_latch_clear hw]
    | true =>
      rw [execute_of_mutates hf hw]
      exact read_mutated_other _ p _ f _ x hf (h hf)

/-- What a frame that may have been executed leaves: free values in its target range. -/
theorem read_indeterminate {f : WinFrame} (hf : f.mutates = true) (d : Device) (p : Params) (x : Nat) :
    (d.indeterminate p f).flash.read x =
      if targetLo f ≤ x ∧ x < targetHi p f then Config.freeFlash d.draws x else d.flash.read x := by
  rw [indeterminate_of_mutates hf]
  exact read_makeUnknown _ (targetLo_le_targetHi p hf) _ x

theorem read_indeterminate_other {f : WinFrame} {x : Nat} (d : Device) (p : Params)
    (h : f.mutates = true → ¬(targetLo f ≤ x ∧ x < targetHi p f)) : (d.indeterminate p f).flash.read x = d.flash.read x := by
  cases hf : f.mutates with
  | false => rw [indeterminate_flash_of_not_mutates hf]
  | true => rw [read_indeterminate hf, if_neg (h hf)]

/-! The end of a window and a failed Transmit. -/

/-- The device as a window's end finds it, with the window cleared. -/
def Device.closed (d : Device) : Device := { d with win := [], torn := false, stale := [] }

/-- Everything the end of a window can do: nothing, the frame's effect, or, in the `general` device, an indeterminate one. -/
theorem endWindow_cases (d : Device) (p : Params) :
    d.endWindow p = d.closed ∨ d.endWindow p = d.closed.execute p (d.meant d.win) ∨
      d.kind = .general ∧ d.endWindow p = d.closed.indeterminate p (d.meant d.win) := by
  cases hk : d.kind with
  | absent => left; simp [Device.endWindow, hk, Device.closed]
  | stub =>
    right; left
    rw [meant_of_ne_general (by simp [hk])]
    simp [Device.endWindow, hk, Device.closed]
  | strictStub =>
    rw [meant_of_ne_general (by simp [hk])]
    cases hb : d.busy <;> simp [Device.endWindow, hk, hb, Device.closed]
  | general =>
    by_cases hu : d.stale ≠ [] ∨ d.busy = true
    · right; right
      refine ⟨rfl, ?_⟩
      simp [Device.endWindow, hk, hu, Device.closed]
    · have hstale : d.stale = [] := by simp_all
      rw [meant_of_clean (by simp [hstale])]
      cases ht : d.torn <;> simp [Device.endWindow, hk, hu, ht, Device.closed]

/-- The end of a stub's window has the effect of its frame. -/
theorem endWindow_stub {d : Device} (hk : d.kind = .stub) (p : Params) : d.endWindow p = d.closed.execute p (winFrame d.win) := by
  simp [Device.endWindow, hk, Device.closed]

theorem failTx_general {d : Device} (hk : d.kind = .general) (p : Params) (bytes : List Byte) :
    d.failTx p bytes = { d with win := d.win ++ bytes, torn := true }.indeterminate p (d.meant (d.win ++ bytes)) := by
  simp [Device.failTx, hk]

/-- A mutating frame that a stub's window holds, with the latch set: its effect on the array, and the latch falls. -/
theorem endWindow_stub_mutates {d : Device} (hk : d.kind = .stub) (hw : d.wel = true) (p : Params) (hf : (winFrame d.win).mutates = true) :
    (d.endWindow p).flash = mutated .stub p d.draws (winFrame d.win) d.flash ∧ (d.endWindow p).wel = false := by
  rw [endWindow_stub hk, execute_of_mutates (d := d.closed) hf hw]
  exact ⟨congrArg (mutated · p d.draws (winFrame d.win) d.flash) hk, rfl⟩

/-- An event stores to no address but those of its frame's target range. -/
theorem read_onEvent_other {p : Params} {d : Device} {e : Event} {a : Nat} (h : d.storesTo p e a = false) :
    (d.onEvent p e).flash.read a = d.flash.read a := by
  have hout : (d.frameAt e).mutates = true → ¬(targetLo (d.frameAt e) ≤ a ∧ a < targetHi p (d.frameAt e)) := by
    intro hm
    simpa [Device.storesTo, hm] using h
  cases e with
  | sel => rfl
  | dly _ => rfl
  | rx n r => cases r <;> rfl
  | desel =>
    obtain he | he | ⟨-, he⟩ := endWindow_cases d p <;> simp only [Device.onEvent, he]
    · rfl
    · exact read_execute_other d.closed p hout
    · exact read_indeterminate_other d.closed p hout
  | tx bytes r =>
    cases r with
    | ok => rfl
    | err k =>
      by_cases hk : d.kind = .general
      · simp only [Device.frameAt, hk, if_true] at hout
        simp only [Device.onEvent, failTx_general hk]
        exact read_indeterminate_other _ p hout
      · simp only [Device.onEvent, failTx_of_ne_general hk]

/-! The programmed bytes. -/

theorem progByte_of_ne_general {k : DeviceKind} (hk : k ≠ .general) (draw t : Nat) (old d : Byte) :
    progByte k draw t old d = old &&& d := by
  simp [progByte, hk]

/-- A stub that programs inside one page, below the end of the array, ANDs each byte of the payload into the byte at its address. -/
theorem read_programFrom {k : DeviceKind} (hk : k ≠ .general) {total a : Nat} (draw : Nat) (ds : List Byte) :
    ∀ (i : Nat) (m : Memory), a % 256 + (i + ds.length) ≤ 256 → a + (i + ds.length) ≤ total →
      ∀ (j : Nat) (hj : j < ds.length),
        (programFrom k total draw a i ds m).read (a + (i + j)) = m.read (a + (i + j)) &&& ds[j] := by
  induction ds with
  | nil => intro i m _ _ j hj; cases hj
  | cons d ds ih =>
    intro i m hpage htotal j hj
    simp only [List.length_cons] at hpage htotal hj
    have addr {j : Nat} (hj : j < i + (ds.length + 1)) : progAddr a j = a + j := progAddr_of_contained hpage hj
    have hi : progAddr a i = a + i := addr (by omega)
    simp only [programFrom, hi, if_pos (show a + i < total by omega), progByte_of_ne_general hk]
    cases j with
    | zero =>
      rw [read_programFrom_other]
      · simp [read_write]
      · intro l hl _
        rw [addr (by omega)]
        omega
    | succ j =>
      have hstep : i + (j + 1) = i + 1 + j := by omega
      rw [hstep, ih (i + 1) _ (by omega) (by omega) j (by omega), read_write, if_neg (by omega)]
      rfl

/-- A page-program of a stub ANDs its payload into the bytes at its address (`20_memory.md` R62). -/
theorem read_mutated_program {p : Params} {a : Nat} {data : List Byte} (hpage : a % 256 + data.length ≤ 256)
    (htotal : a + data.length ≤ p.totalBytes) (draw : Nat) (m : Memory) {i : Nat} (hi : i < data.length) :
    (mutated .stub p draw (.program a data) m).read (a + i) = m.read (a + i) &&& data[i] := by
  have h := read_programFrom (k := .stub) (total := p.totalBytes) (by decide) draw data 0 m
    (by simpa using hpage) (by simpa using htotal) i hi
  rwa [Nat.zero_add] at h

/-! The target ranges. -/

theorem targetLo_program {a : Nat} {d : List Byte} (h : a % 256 + d.length ≤ 256) : targetLo (.program a d) = a := if_pos h

theorem targetHi_program {p : Params} {a : Nat} {d : List Byte} (h : a % 256 + d.length ≤ 256) (ht : a + d.length ≤ p.totalBytes) :
    targetHi p (.program a d) = a + d.length := by
  simp only [targetHi, targetLo_program h, if_pos h, capHi]
  omega

theorem mem_sector_iff (p : Params) (a x : Nat) :
    sectorLo a ≤ x ∧ x < capHi (sectorLo a) (sectorHi a) p.totalBytes ↔ x / 4096 = a / 4096 ∧ x < p.totalBytes := by
  simp only [sectorLo, sectorHi, capHi]
  omega

/-- It keeps the bytes outside its payload's range. -/
theorem read_mutated_program_other {p : Params} {a : Nat} {data : List Byte} (hpage : a % 256 + data.length ≤ 256)
    (htotal : a + data.length ≤ p.totalBytes) (draw : Nat) (m : Memory) {x : Nat} (hx : x < a ∨ a + data.length ≤ x) :
    (mutated .stub p draw (.program a data) m).read x = m.read x := by
  refine read_mutated_other _ p _ _ _ x rfl ?_
  rw [targetLo_program hpage, targetHi_program hpage htotal]
  omega

/-! The obligations on the device. -/

/-- Settles O51: the one event of the step, which the device plays, stores inside its frame's target range only. -/
theorem instructionsKeepOtherFlashBytes : Obligations.InstructionsKeepOtherFlashBytes := by
  unfold Obligations.InstructionsKeepOtherFlashBytes
  intro i s t h
  cases exec_portStep h with
  | blind evs len run =>
    have ht : t = t.behind _ _ := Host.Outcome.next.inj (h.symm.trans (run s.dev s.trace))
    have hdev : t.dev = s.dev.play s.cfg evs := congrArg State.dev ht
    refine ⟨evs, len, congrArg State.trace ht, fun a hno => ?_⟩
    rw [hdev]
    match evs, len with
    | [], _ => rfl
    | [e], _ => exact read_onEvent_other (hno e (by simp))
  | receive n _ ends _ =>
    subst ends
    refine ⟨[.rx n (s.rxAnswer n)], Nat.le_refl 1, congrArg State.trace (s.receive_eq_behind n), fun a hno => ?_⟩
    rw [congrArg State.dev (s.receive_eq_behind n)]
    exact read_onEvent_other (hno _ (by simp))

/-- Settles O53: a stub's window ends in nothing or in its frame's effect, and that effect needs the latch. -/
theorem latchGatesEveryMutation : Obligations.LatchGatesEveryMutation := by
  unfold Obligations.LatchGatesEveryMutation
  intro p d hw hk
  obtain he | he | ⟨hg, -⟩ := endWindow_cases d p
  · rw [Device.onEvent, he]
    rfl
  · rw [Device.onEvent, he]
    exact execute_flash_of_latch_clear (d := d.closed) hw p _
  · exact absurd hg hk

/-- Settles O54: byte by byte for the payload, by the frame's target range for the other bytes. -/
theorem programAndsThePayload : Obligations.ProgramAndsThePayload := by
  unfold Obligations.ProgramAndsThePayload
  intro p d a2 a1 a0 data hk hw hwin hd a hpage htotal
  have hf : winFrame d.win = .program a data := hwin ▸ winFrame_program a2 a1 a0 hd
  obtain ⟨hflash, hwel⟩ := endWindow_stub_mutates hk hw p (by rw [hf]; rfl)
  rw [hf] at hflash
  simp only [Device.onEvent, hflash, hwel, and_true]
  exact ⟨fun i hi => read_mutated_program hpage htotal _ _ hi, fun x hx => read_mutated_program_other hpage htotal _ _ hx⟩

/-- Settles O55: the erased ranges are the sector and the array. -/
theorem erasesSetTheirBytes : Obligations.ErasesSetTheirBytes := by
  unfold Obligations.ErasesSetTheirBytes
  intro p d hk hw
  have effect := endWindow_stub_mutates hk hw p
  refine ⟨?sector, ?chip, fun hm hf => (effect (winFrame_mutates hm hf)).2⟩
  case sector =>
    intro a2 a1 a0 hwin a x
    have hf : winFrame d.win = .sector a := by rw [hwin]; rfl
    obtain ⟨hflash, -⟩ := effect (by rw [hf]; rfl)
    rw [Device.onEvent, hflash, hf, mutated, read_eraseRange _ (le_capHi _ _ _)]
    simp only [mem_sector_iff]
  case chip =>
    intro hwin x
    have hf : winFrame d.win = .chip := by rw [hwin]; rfl
    obtain ⟨hflash, -⟩ := effect (by rw [hf]; rfl)
    rw [Device.onEvent, hflash, hf, mutated, read_eraseRange _ (Nat.zero_le _)]
    simp only [Nat.zero_le, true_and]

/-- Settles O56: the failed frame is what the window may mean, the chunk or, after an unfinished mutating frame, the whole array. -/
theorem failedProgramLeavesItsRangeLatchAndBusyUnknown : Obligations.FailedProgramLeavesItsRangeLatchAndBusyUnknown := by
  unfold Obligations.FailedProgramLeavesItsRangeLatchAndBusyUnknown
  intro p d k a2 a1 a0 data hk hwin hd a d'
  have hfail : d' = { d with win := d.win ++ Opcode.pp :: a2 :: a1 :: a0 :: data, torn := true }.indeterminate p
      (d.meant (Opcode.pp :: a2 :: a1 :: a0 :: data)) := by
    refine (failTx_general hk p _).trans ?_
    rw [hwin]
    rfl
  have hchunk (hs : d.stale.any frameMutates = false) : d.meant (Opcode.pp :: a2 :: a1 :: a0 :: data) = .program a data :=
    (meant_of_clean hs _).trans (winFrame_program a2 a1 a0 hd)
  have hchip (hs : d.stale.any frameMutates = true) : d.meant (Opcode.pp :: a2 :: a1 :: a0 :: data) = .chip := by
    simp [Device.meant, hk, hs]
  have hm : (d.meant (Opcode.pp :: a2 :: a1 :: a0 :: data)).mutates = true := by
    cases hs : d.stale.any frameMutates with
    | false => rw [hchunk hs]; rfl
    | true => rw [hchip hs]; rfl
  refine ⟨fun hs hpage htotal x => ?chunk, fun hs x => ?array, ?latch, ?busy⟩
  case chunk =>
    rw [hfail, read_indeterminate hm, hchunk hs, targetLo_program hpage, targetHi_program hpage htotal]
  case array =>
    rw [hfail, read_indeterminate hm, hchip hs]
    simp [targetLo, targetHi]
  case latch => rw [hfail, indeterminate_of_mutates hm]
  case busy => rw [hfail, indeterminate_of_mutates hm]

/-- Settles O17: the range check passes and the host's duty is broken. -/
theorem shortBufferIsRefused : Obligations.ShortBufferIsRefused := by
  unfold Obligations.ShortBufferIsRefused
  intro s hs hr
  have hrange : s.rangeOk = true := decide_eq_true hr
  have chk {o : Op} (ho : s.op = o) : exec o.toInstr s = opCheck o s := ho ▸ exec_chk hs
  have read (hl : s.dst.length < s.len) : checkRead s = .refused .dstTooShort := by
    simp [checkRead, hrange, Nat.not_le.2 hl]
  have write (hl : s.src.length < s.len) : checkWrite s = .refused .srcTooShort := by
    simp [checkWrite, hrange, Nat.not_le.2 hl]
  exact ⟨fun ho hl => (chk ho).trans (write hl), fun ho hl => (chk ho).trans (read hl), fun ho hl => (chk ho).trans (read hl)⟩

end Sys2Proof.Machine

/-! The transaction, the gated mutation, `write` and `read`, each iterated to its end (`40_wire_instructions.md` R90, `41_write_gate.md`
R107, `42_page_write.md` R111 to R119, `43_facade_ops.md` R128). -/

namespace Sys2Proof.Machine

/-! Iteration. -/

theorem iterate_one (i : Instr) (s : State) : iterate i 1 s = exec i s := by
  simp only [iterate]
  cases exec i s <;> rfl

theorem iterate_add {i : Instr} (j k : Nat) : ∀ {s t : State}, iterate i j s = .next t → iterate i (j + k) s = iterate i k t := by
  induction j with
  | zero =>
    intro s t h
    cases h
    rw [Nat.zero_add]
  | succ j ih =>
    intro s t h
    cases he : exec i s with
    | next u =>
      rw [iterate_succ he] at h
      rw [Nat.succ_add, iterate_succ he]
      exact ih h
    | fault f => simp [iterate, he] at h
    | refused r => simp [iterate, he] at h

/-! The answers to come. -/

theorem txAnswer_of_take {s : State} {n : Nat} (h : ∀ a ∈ s.answers.take (n + 1), a.isErr = false) : s.txAnswer = .ok := by
  cases ha : s.answers with
  | nil => simp [State.txAnswer, ha]
  | cons a rest =>
    have := h a (by simp [ha])
    cases a <;> simp_all [State.txAnswer, Answer.isErr]

theorem noErr_drop {l : List Answer} (j : Nat) {k : Nat} (h : ∀ a ∈ l.take (j + k), a.isErr = false) :
    ∀ a ∈ (l.drop j).take k, a.isErr = false := by
  intro a ha
  rw [List.take_drop] at ha
  exact h a (List.mem_of_mem_drop ha)

/-! The calls made. -/

/-- The state after the calls `evs`, of which `n` took an answer. -/
def State.called (s : State) (evs : List Event) (n : Nat) : State :=
  { s with trace := s.trace ++ evs, dev := s.dev.play s.cfg evs, answers := s.answers.drop n }

/-- The state inside a window that it opened, after the calls `evs`. -/
def State.window (s : State) (evs : List Event) (n : Nat) (b : Sub) : State :=
  { s.called evs n with selected := true, pc := ⟨s.pc.stage, b⟩ }

/-- The state at `(g, b)` after whole windows and delays, the calls `evs`. -/
def State.between (s : State) (evs : List Event) (n : Nat) (g : Stage) (b : Sub) : State :=
  { s.called evs n with selected := false, pc := ⟨g, b⟩ }

@[simp] theorem State.between_pc (s : State) (evs : List Event) (n : Nat) (g : Stage) (b : Sub) :
    (s.between evs n g b).pc = ⟨g, b⟩ := rfl

@[simp] theorem State.between_op (s : State) (evs : List Event) (n : Nat) (g : Stage) (b : Sub) : (s.between evs n g b).op = s.op := rfl

@[simp] theorem State.between_pending (s : State) (evs : List Event) (n : Nat) (g : Stage) (b : Sub) :
    (s.between evs n g b).pending = s.pending := rfl

@[simp] theorem State.between_answers (s : State) (evs : List Event) (n : Nat) (g : Stage) (b : Sub) :
    (s.between evs n g b).answers = s.answers.drop n := rfl

theorem State.between_between (s : State) (xs ys : List Event) (m n : Nat) (g g' : Stage) (b b' : Sub) :
    (s.between xs m g b).between ys n g' b' = s.between (xs ++ ys) (m + n) g' b' := by
  simp [State.between, State.called, Device.play_append]

/-! The transaction. -/

/-- The frame of the position is that of `i`, whose address exists. -/
structure State.Carries (s : State) (i : Instr) : Prop where
  frame : s.frame = some (frameBytes i)
  decodes : decodeFrame (frameBytes i) = .instrs [i]
  fits : i.fits s.cfg = true

theorem State.Carries.window {s : State} {i : Instr} (h : s.Carries i) (evs : List Event) (n : Nat) (b : Sub) :
    (s.window evs n b).Carries i := ⟨h.frame, h.decodes, h.fits⟩

theorem State.Carries.between {s : State} {i : Instr} {g : Stage} {b : Sub} (h : (s.goto g b).Carries i) (evs : List Event) (n : Nat)
    (b' : Sub) : (s.between evs n g b').Carries i := ⟨h.frame, h.decodes, h.fits⟩

theorem State.Carries.exec {s : State} {i : Instr} (h : s.Carries i) (hs : s.pc.stage.hasTxn = true) :
    exec s.op.toInstr s = txnStep (frameBytes i) (s.respLen i) s := by
  have hi := wireInstr_of_frame h.frame h.decodes
  rw [exec_txn hs, wireStep_eq hi, exec_wire (wireInstr_isWire hi) h.fits]

section Transaction

variable {s : State} {i : Instr} (hs : s.pc.stage.hasTxn = true) (hb : s.pc.sub = .sel) (hc : s.Carries i) (ha : s.txAnswer = .ok)
include hs hb hc ha

/-- Select and Transmit. -/
theorem iterate_open : iterate s.op.toInstr 2 s =
    .next (s.window [.sel, .tx (frameBytes i) .ok] 1 (if (s.respLen i).isSome then .rx else .desel)) := by
  have hsel : exec s.op.toInstr s = .next (s.window [.sel] 0 .tx) := by
    rw [hc.exec hs, txnStep_sel hs hb]
    rfl
  have htx : exec s.op.toInstr (s.window [.sel] 0 .tx) =
      .next ((s.window [.sel] 0 .tx).transmit (frameBytes i) (s.respLen i).isSome) := by
    rw [← txnStep_tx (s := s.window [.sel] 0 .tx) hs rfl]
    exact (hc.window [.sel] 0 .tx).exec hs
  rw [iterate_succ hsel, iterate_one, htx, transmit_ok (s := s.window [.sel] 0 .tx) ha]
  simp [State.window, State.called, State.emit, State.goto, State.dropAnswer]

/-- A transaction without response phase. -/
theorem iterate_txn (hr : s.respLen i = none) :
    iterate s.op.toInstr 3 s = afterTxn (s.between (txnTrace (frameBytes i)) 1 s.pc.stage .desel) := by
  let sent := s.window [.sel, .tx (frameBytes i) .ok] 1 .desel
  have hopen : iterate s.op.toInstr 2 s = .next sent := by simpa [hr] using iterate_open hs hb hc ha
  have hdesel : exec s.op.toInstr sent = afterTxn sent.deselect := by
    rw [← txnStep_desel (s := sent) hs rfl]
    exact (hc.window _ 1 .desel).exec hs
  rw [iterate_add 2 1 hopen, iterate_one, hdesel]
  simp [sent, State.window, State.between, State.called, State.deselect, State.emit, txnTrace]

/-- A transaction with a response phase. -/
theorem iterate_rxn {n : Nat} {bytes : List Byte} (hr : s.respLen i = some n)
    (hbytes : (s.called [.sel, .tx (frameBytes i) .ok] 1).rxAnswer n = .ok bytes) :
    iterate s.op.toInstr 4 s =
      afterTxn ({ s with resp := bytes }.between (rxnTrace (frameBytes i) bytes) 2 s.pc.stage .desel) := by
  let sent := s.window [.sel, .tx (frameBytes i) .ok] 1 .rx
  let received := { s with resp := bytes }.window [.sel, .tx (frameBytes i) .ok, .rx n (.ok bytes)] 2 .desel
  have hopen : iterate s.op.toInstr 2 s = .next sent := by simpa [hr] using iterate_open hs hb hc ha
  have hrx : exec s.op.toInstr sent = .next received := by
    have hreceive : sent.receive n = received := by
      rw [receive_ok (s := sent) hbytes]
      simp [sent, received, State.window, State.called, State.emit, State.dropAnswer, -List.drop_one]
    rw [← hreceive, ← txnStep_rx (s := sent) hs rfl (frameBytes i), ← hr]
    exact (hc.window _ 1 .rx).exec hs
  have hdesel : exec s.op.toInstr received = afterTxn received.deselect := by
    rw [← txnStep_desel (s := received) hs rfl]
    exact State.Carries.exec (s := received) ⟨hc.frame, hc.decodes, hc.fits⟩ hs
  rw [iterate_add 2 2 hopen, iterate_succ hrx, iterate_one, hdesel]
  simp [received, State.window, State.between, State.called, State.deselect, State.emit, rxnTrace, rxAnswer_length hbytes]

end Transaction

/-! What follows a transaction, and the gated mutation. -/

theorem carries_wren {s : State} (hs : s.pc.stage = .en) : s.Carries .wren := ⟨by simp [State.frame, hs, frameBytes, encode], rfl, rfl⟩

theorem carries_wrdi {s : State} (hs : s.pc.stage = .dis) : s.Carries .wrdi := ⟨by simp [State.frame, hs, frameBytes, encode], rfl, rfl⟩

section AfterTxn

variable {s : State} (hp : s.pending = .ok) (evs : List Event) (n : Nat)
include hp

theorem afterTxn_enable : afterTxn (s.between evs n .en .desel) = .next (s.between evs n .mut .sel) :=
  if_neg (not_not.2 hp)

theorem afterTxn_mutate : afterTxn (s.between evs n .mut .desel) = .next (s.between evs n .dly .dash) :=
  if_neg (not_not.2 hp)

theorem afterTxn_disable : afterTxn (s.between evs n .dis .desel) = afterDisable (s.between evs n .dis .desel) :=
  if_neg (not_not.2 hp)

/-- The single transaction of a read ends it (`43_facade_ops.md` R128, R129). -/
theorem afterTxn_read (ho : s.op = .read ∨ s.op = .fastRead) :
    afterTxn (s.between evs n .xfer .desel) = .next (s.between evs n .xfer .desel).endRead := by
  obtain ho | ho := ho <;> simp [afterTxn, afterXfer, hp, ho]

end AfterTxn

theorem delayStep_between {s : State} {d : DelayParam} (hd : delayOf s.op = some d) (ho : s.op ≠ .reset) (evs : List Event) (n : Nat) :
    delayStep (s.between evs n .dly .dash) = .next (s.between (evs ++ [.dly d]) n .dis .sel) := by
  rw [delayStep_eq (s := s.between evs n .dly .dash) hd, State.between_op, if_neg ho]
  simp [State.between, State.called, State.delay, State.emit, State.goto, Device.play_append]

/-- The ten calls of a gated mutation (`41_write_gate.md` R107). -/
theorem iterate_gate {s : State} {i : Instr} {d : DelayParam} (hpc : s.pc = ⟨.en, .sel⟩) (hp : s.pending = .ok)
    (hd : delayOf s.op = some d) (ho : s.op ≠ .reset) (hc : (s.goto .mut .sel).Carries i) (hr : s.respLen i = none)
    (ha : ∀ a ∈ s.answers.take 3, a.isErr = false) :
    iterate s.op.toInstr 10 s = afterDisable (s.between (gateTrace (frameBytes i) d) 3 .dis .desel) := by
  let enabled := s.between (txnTrace [Opcode.wren]) 1 .mut .sel
  let sent := s.between (txnTrace [Opcode.wren] ++ txnTrace (frameBytes i)) 2 .dly .dash
  let delayed := s.between (txnTrace [Opcode.wren] ++ txnTrace (frameBytes i) ++ [.dly d]) 2 .dis .sel
  have henable : iterate s.op.toInstr 3 s = .next enabled := by
    rw [iterate_txn (by rw [hpc]; rfl) (by rw [hpc]) (carries_wren (by rw [hpc])) (txAnswer_of_take ha) rfl, hpc]
    exact afterTxn_enable hp _ 1
  have hmutate : iterate s.op.toInstr 3 enabled = .next sent := by
    have h := iterate_txn (s := enabled) rfl rfl (hc.between _ 1 .sel) (txAnswer_of_take (n := 1) (noErr_drop 1 ha)) hr
    rw [State.between_between] at h
    exact h.trans (afterTxn_mutate hp _ 2)
  have hdelay : iterate s.op.toInstr 1 sent = .next delayed := by
    rw [iterate_one]
    exact (exec_dly (s := sent) rfl).trans (delayStep_between hd ho _ 2)
  have hdisable : iterate s.op.toInstr 3 delayed = afterDisable (s.between (gateTrace (frameBytes i) d) 3 .dis .desel) := by
    have h := iterate_txn (s := delayed) rfl rfl (carries_wrdi rfl) (txAnswer_of_take (n := 0) (noErr_drop 2 ha)) rfl
    rw [State.between_between] at h
    exact h.trans (afterTxn_disable hp _ 3)
  rw [iterate_add 3 7 henable, iterate_add 3 4 hmutate, iterate_add 1 3 hdelay, hdisable]

/-! The frames that carry an address. -/

theorem lo8_congr {m n : Nat} (h : m % 256 = n % 256) : lo8 m = lo8 n := BitVec.eq_of_toNat_eq (by simpa [lo8] using h)

/-- An address is sent by its low 24 bits (`30_encoding.md` R72). -/
theorem addrBytes_ofNat (a : Nat) : addrBytes (BitVec.ofNat 24 a).toNat = addrBytes a := by
  simp only [addrBytes, BitVec.toNat_ofNat, List.cons.injEq, and_true]
  exact ⟨lo8_congr (by omega), lo8_congr (by omega), lo8_congr (by omega)⟩

/-- Where the frame of a `PP` stands, at an address that exists, the position carries that `PP`. -/
theorem carries_pp {s : State} {data : List Byte} {a : Nat} (hf : s.frame = some (Opcode.pp :: (addrBytes a ++ data)))
    (hd : 1 ≤ data.length ∧ data.length ≤ Config.pageSize) (ha : a < s.cfg.totalBytes) (hcfg : s.cfg.wf) :
    frameBytes (.pp (BitVec.ofNat 24 a) data) = Opcode.pp :: (addrBytes a ++ data) ∧ s.Carries (.pp (BitVec.ofNat 24 a) data) := by
  have hbytes : frameBytes (.pp (BitVec.ofNat 24 a) data) = Opcode.pp :: (addrBytes a ++ data) := by
    rw [← addrBytes_ofNat a]
    rfl
  obtain ⟨-, hmax, -⟩ := hcfg
  refine ⟨hbytes, hbytes ▸ hf, hbytes ▸ decodeFrame_pp a hd, decide_eq_true ?_⟩
  rwa [BitVec.toNat_ofNat, Nat.mod_eq_of_lt (Nat.lt_of_lt_of_le ha hmax)]

theorem frameBytes_read (a : Nat) : frameBytes (.read (BitVec.ofNat 24 a)) = Opcode.read :: addrBytes a := by
  rw [← addrBytes_ofNat a]
  rfl

theorem carries_read {s : State} (hs : s.pc.stage = .xfer) (ho : s.op = .read) : s.Carries (.read (BitVec.ofNat 24 s.base)) := by
  refine ⟨?_, ?_, rfl⟩ <;> rw [frameBytes_read]
  · simp [State.frame, State.xferFrame, hs, ho]
  · exact decodeFrame_read s.base

/-! The splitter's chunks (`42_page_write.md` R118, R119). -/

@[simp] theorem chunkAddr_zero (base : Nat) : chunkAddr base 0 = base := if_pos rfl

theorem chunkAddr_succ (base j : Nat) : chunkAddr base (j + 1) = 256 * (base / 256 + (j + 1)) := if_neg (Nat.succ_ne_zero j)

@[simp] theorem chunkLen_zero (base len : Nat) : chunkLen base len 0 = min (256 - base % 256) len := if_pos rfl

theorem chunkLen_succ (base len j : Nat) : chunkLen base len (j + 1) = min 256 (base + len - chunkAddr base (j + 1)) :=
  if_neg (Nat.succ_ne_zero j)

/-- The chunks are those that begin before the end of the request. -/
theorem lt_chunkCount_iff (base len j : Nat) : j < chunkCount base len ↔ chunkAddr base j < base + len := by
  unfold chunkCount
  cases j with
  | zero =>
    rw [chunkAddr_zero]
    split <;> omega
  | succ j =>
    rw [chunkAddr_succ]
    split <;> omega

theorem base_le_chunkAddr (base j : Nat) : base ≤ chunkAddr base j := by
  cases j with
  | zero => exact Nat.le_refl base
  | succ j =>
    rw [chunkAddr_succ]
    omega

/-- A chunk ends where its page or the request does. -/
theorem chunkAddr_add_chunkLen {base len j : Nat} (hj : j < chunkCount base len) :
    chunkAddr base j + chunkLen base len j = min (chunkAddr base (j + 1)) (base + len) := by
  have hlt := (lt_chunkCount_iff base len j).1 hj
  cases j with
  | zero =>
    rw [chunkAddr_succ, chunkAddr_zero, chunkLen_zero]
    omega
  | succ j =>
    rw [chunkAddr_succ] at hlt
    rw [chunkLen_succ, chunkAddr_succ, chunkAddr_succ]
    omega

/-- A chunk is not empty and stays in its page (`42_page_write.md` R120, R121). -/
theorem chunk_in_page {base len j : Nat} (hj : j < chunkCount base len) :
    1 ≤ chunkLen base len j ∧ chunkAddr base j % 256 + chunkLen base len j ≤ 256 := by
  have hlt := (lt_chunkCount_iff base len j).1 hj
  cases j with
  | zero =>
    rw [chunkAddr_zero] at hlt ⊢
    rw [chunkLen_zero]
    omega
  | succ j =>
    rw [chunkLen_succ, chunkAddr_succ] at *
    omega

/-- The payload of chunk `j` (`42_page_write.md` R114). -/
def chunkData (src : List Byte) (base len j : Nat) : List Byte := (src.drop (chunkAddr base j - base)).take (chunkLen base len j)

theorem chunkFrame_eq (src : List Byte) (base len j : Nat) :
    chunkFrame src base len j = Opcode.pp :: (addrBytes (chunkAddr base j) ++ chunkData src base len j) := rfl

theorem chunkData_length {src : List Byte} {base len j : Nat} (hj : j < chunkCount base len) (hl : len ≤ src.length) :
    (chunkData src base len j).length = chunkLen base len j := by
  have hbase := base_le_chunkAddr base j
  have hend := chunkAddr_add_chunkLen hj
  simp only [chunkData, List.length_take, List.length_drop]
  omega

/-- Byte `i` of the source is byte `i` of the chunk that its address lies in. -/
theorem chunkData_getElem? {src : List Byte} {base len i j k : Nat} (hk : base + i = chunkAddr base j + k)
    (hlt : k < chunkLen base len j) : (chunkData src base len j)[k]? = src[i]? := by
  have hbase := base_le_chunkAddr base j
  rw [chunkData, List.getElem?_take_of_lt hlt, List.getElem?_drop]
  congr 1
  omega

theorem chunksTrace_succ (src : List Byte) (base len j : Nat) :
    chunksTrace src base len (j + 1) = chunksTrace src base len j ++ gateTrace (chunkFrame src base len j) .tPp := by
  simp [chunksTrace, List.range_succ]

end Sys2Proof.Machine

/-! `write` and `read` from acceptance to the finish (`42_page_write.md` R111 to R119, `43_facade_ops.md` R128). -/

namespace Sys2Proof.Machine

/-- Acceptance of a command by a ready machine, and the check of its operation. -/
theorem iterate_start {s t : State} {o : Op} (h : s.ready) (ho : o ≠ .init) (hc : opCheck o (s.accepted o) = .next t) :
    iterate o.toInstr 2 s = .next t := by
  obtain ⟨hpc, hbusy, hbound⟩ := h
  have haccept : exec o.toInstr s = .next (s.accepted o) := by
    rw [exec_idle (by rw [hpc])]
    exact accept_next hbusy (by simp [hbound, ho])
  rw [iterate_succ haccept, iterate_one]
  exact (exec_chk (s := s.accepted o) rfl).trans hc

theorem exec_complete {s : State} {o : Op} (ho : s.op = o) : exec o.toInstr s.complete = .next s.complete.finish :=
  ho ▸ exec_fin (s := s.complete) rfl

/-! `write`. -/

/-- The state of the `write` accepted in `s` before its chunk `j`, the chunks before it sent. -/
def State.atChunk (s : State) (j : Nat) : State :=
  { s.called (chunksTrace s.src s.start s.len j) (3 * j) with
    op := .write, busy := true, done := false, pending := .ok, pc := ⟨.en, .sel⟩, selected := if j = 0 then s.selected else false,
    base := s.start, cur := chunkAddr s.start j, endAddr := s.start + s.len, rem := if j = 0 then 256 - s.start % 256 else 256,
    chunk := chunkLen s.start s.len j }

/-- The state that a `write` accepted in `s` leaves when its `n` chunks are sent. -/
def State.written (s : State) (n : Nat) : State :=
  { s.afterOp .write .ok (chunksTrace s.src s.start s.len n) (3 * n) with
    base := s.start, cur := s.start + s.len, endAddr := s.start + s.len,
    rem := if n = 0 then 256 - s.start % 256 else 256,
    chunk := if n = 0 then s.chunk else chunkLen s.start s.len (n - 1),
    selected := if n = 0 then s.selected else false }

@[simp] theorem State.written_dev (s : State) (n : Nat) :
    (s.written n).dev = s.dev.play s.cfg (chunksTrace s.src s.start s.len n) := rfl

@[simp] theorem State.written_answers (s : State) (n : Nat) : (s.written n).answers = s.answers.drop (3 * n) := rfl

theorem checkWrite_start {s : State} (hr : s.start + s.len ≤ s.cfg.totalBytes) (hl : s.len ≤ s.src.length) :
    checkWrite (s.accepted .write) = .next (s.accepted .write).startWrite.loopTest := by
  have hrange : (s.accepted .write).rangeOk = true := decide_eq_true hr
  have hsrc : (s.accepted .write).len ≤ (s.accepted .write).src.length := hl
  rw [checkWrite, if_pos hrange, if_pos hsrc]

/-- A request of some length begins with its chunk 0. -/
theorem startWrite_loopTest {s : State} (h : 0 < chunkCount s.start s.len) :
    (s.accepted .write).startWrite.loopTest = s.atChunk 0 := by
  have hlt : s.start < s.start + s.len := (lt_chunkCount_iff s.start s.len 0).1 h
  rw [loopTest_next (by exact hlt)]
  simp [State.startWrite, State.accepted, State.markAccepted, State.atChunk, State.called, chunksTrace, State.start]

section Chunk

variable {s : State} {j : Nat} (hj : j < chunkCount s.start s.len) (hcfg : s.cfg.wf) (hr : s.start + s.len ≤ s.cfg.totalBytes)
  (hl : s.len ≤ s.src.length)
include hj hcfg hr hl

/-- The `PP` that carries chunk `j` (`42_page_write.md` R114). -/
theorem atChunk_carries : ∃ i, frameBytes i = chunkFrame s.src s.start s.len j ∧ s.respLen i = none ∧
    ((s.atChunk j).goto .mut .sel).Carries i := by
  obtain ⟨hpos, hpage⟩ := chunk_in_page hj
  have hlen := chunkData_length hj hl
  obtain ⟨hbytes, hc⟩ := carries_pp (s := (s.atChunk j).goto .mut .sel) (data := chunkData s.src s.start s.len j) rfl
    (by simp only [hlen, Config.pageSize]; omega) (Nat.lt_of_lt_of_le ((lt_chunkCount_iff s.start s.len j).1 hj) hr) hcfg
  exact ⟨_, hbytes, rfl, hc⟩

/-- The ten calls of a chunk, up to the loop test. -/
theorem iterate_chunk (ha : ∀ a ∈ (s.answers.drop (3 * j)).take 3, a.isErr = false) :
    iterate .opWrite 10 (s.atChunk j) =
      .next ((s.atChunk j).between (gateTrace (chunkFrame s.src s.start s.len j) .tPp) 3 .dis .desel).advance.loopTest := by
  obtain ⟨i, hi, hresp, hc⟩ := atChunk_carries hj hcfg hr hl
  rw [← hi]
  exact iterate_gate (s := s.atChunk j) rfl rfl rfl (by simp [State.atChunk]) hc hresp ha

end Chunk

/-- After a chunk comes the next one. -/
theorem loopTest_atChunk {s : State} {j : Nat} (hj : j + 1 < chunkCount s.start s.len) :
    ((s.atChunk j).between (gateTrace (chunkFrame s.src s.start s.len j) .tPp) 3 .dis .desel).advance.loopTest = s.atChunk (j + 1) := by
  have hnext := (lt_chunkCount_iff s.start s.len (j + 1)).1 hj
  have hend : chunkAddr s.start j + chunkLen s.start s.len j = chunkAddr s.start (j + 1) := by
    rw [chunkAddr_add_chunkLen (Nat.lt_of_succ_lt hj)]
    omega
  rw [← hend] at hnext
  rw [loopTest_next (by exact hnext)]
  simp [State.between, State.advance, State.atChunk, State.called, chunksTrace_succ, Device.play_append, hend, chunkLen_succ, Nat.mul_succ]

/-- After the last chunk comes the finish. -/
theorem exec_lastChunk {s : State} {j : Nat} (hj : j + 1 = chunkCount s.start s.len) :
    exec .opWrite ((s.atChunk j).between (gateTrace (chunkFrame s.src s.start s.len j) .tPp) 3 .dis .desel).advance.loopTest =
      .next (s.written (j + 1)) := by
  have hlast := mt (lt_chunkCount_iff s.start s.len (j + 1)).2 (by omega)
  have hend : chunkAddr s.start j + chunkLen s.start s.len j = s.start + s.len := by
    rw [chunkAddr_add_chunkLen (by omega)]
    omega
  rw [loopTest_end (by exact Nat.not_lt.2 (Nat.le_of_eq hend.symm))]
  refine (exec_complete (o := .write) rfl).trans (congrArg _ ?_)
  simp [State.finish, State.complete, State.between, State.advance, State.atChunk, State.called, chunksTrace_succ, Device.play_append,
    hend, Nat.mul_succ, State.written, State.afterOp, State.markFinished, State.goto]

/-- Without a chunk the finish comes at once (`42_page_write.md` R117). -/
theorem exec_noChunk {s : State} (hn : chunkCount s.start s.len = 0) :
    exec .opWrite (s.accepted .write).startWrite.loopTest = .next (s.written 0) := by
  have hlen : s.len = 0 := by
    have hnone := mt (lt_chunkCount_iff s.start s.len 0).2 (by omega)
    rw [chunkAddr_zero] at hnone
    omega
  have hend : ¬(s.accepted .write).startWrite.cur < (s.accepted .write).startWrite.endAddr := by simp [hlen]
  rw [loopTest_end hend]
  refine (exec_complete (o := .write) rfl).trans (congrArg _ ?_)
  simp [State.finish, State.complete, State.startWrite, State.accepted, State.markAccepted, State.start, hlen, State.written,
    State.afterOp, State.markFinished, State.goto, chunksTrace]

section Write

variable {s : State} (h : s.ready) (hcfg : s.cfg.wf) (hr : s.start + s.len ≤ s.cfg.totalBytes) (hl : s.len ≤ s.src.length)
include h hcfg hr hl

/-- A `write` up to its chunk `j`. -/
theorem iterate_toChunk (j : Nat) (hj : j < chunkCount s.start s.len) (ha : ∀ a ∈ s.answers.take (3 * j), a.isErr = false) :
    iterate .opWrite (2 + 10 * j) s = .next (s.atChunk j) := by
  induction j with
  | zero =>
    rw [← startWrite_loopTest hj]
    exact iterate_start (o := .write) h (by decide) (checkWrite_start hr hl)
  | succ j ih =>
    have hprev : j < chunkCount s.start s.len := Nat.lt_of_succ_lt hj
    have hto := ih hprev fun a hmem => ha a (List.take_subset_take_left _ (by omega) hmem)
    rw [Nat.mul_succ, ← Nat.add_assoc, iterate_add _ 10 hto, iterate_chunk hprev hcfg hr hl (noErr_drop _ ha), loopTest_atChunk hj]

/-- A `write` whose calls all answer `ok`, from its command to the finish (`42_page_write.md` R110 to R119). -/
theorem iterate_opWrite (ha : ∀ a ∈ s.answers.take (3 * chunkCount s.start s.len), a.isErr = false) :
    iterate .opWrite (10 * chunkCount s.start s.len + 3) s = .next (s.written (chunkCount s.start s.len)) := by
  generalize hn : chunkCount s.start s.len = n at ha ⊢
  cases n with
  | zero =>
    have hstart := iterate_start (o := .write) h (by decide) (checkWrite_start hr hl)
    exact (iterate_add 2 1 hstart).trans ((iterate_one _ _).trans (exec_noChunk hn))
  | succ j =>
    have hto := iterate_toChunk h hcfg hr hl j (by omega) fun a hmem => ha a (List.take_subset_take_left _ (by omega) hmem)
    have hchunk := iterate_chunk (by omega) hcfg hr hl (noErr_drop (3 * j) ha)
    have hsteps : 10 * (j + 1) + 3 = 2 + 10 * j + (10 + 1) := by omega
    rw [hsteps, iterate_add _ _ hto, iterate_add _ _ hchunk, iterate_one, exec_lastChunk hn.symm]

end Write

/-! `read`. -/

/-- A `read` whose calls answer `ok`, from its command to the finish (`43_facade_ops.md` R128). -/
theorem iterate_opRead {s : State} {bytes : List Byte} (h : s.ready) (hr : s.start + s.len ≤ s.cfg.totalBytes)
    (hl : s.len ≤ s.dst.length) (ha : s.txAnswer = .ok)
    (hbytes : (s.called [.sel, .tx (Opcode.read :: addrBytes s.start) .ok] 1).rxAnswer s.len = .ok bytes) :
    iterate .opRead 7 s = .next { s.afterOp .read .ok (rxnTrace (Opcode.read :: addrBytes s.start) bytes) 2 with
      base := s.start, resp := bytes, dst := bytes ++ s.dst.drop s.len } := by
  let begun : State := { s.accepted .read with base := s.start, pc := ⟨.xfer, .sel⟩ }
  have hstart : iterate .opRead 2 s = .next begun := by
    refine iterate_start (o := .read) h (by decide) ?_
    have hrange : (s.accepted .read).rangeOk = true := decide_eq_true hr
    have hdst : (s.accepted .read).len ≤ (s.accepted .read).dst.length := hl
    rw [opCheck, checkRead, if_pos hrange, if_pos hdst]
    rfl
  have htxn := iterate_rxn (s := begun) (n := s.len) rfl rfl (carries_read rfl rfl) ha rfl (bytes := bytes)
    (by rw [frameBytes_read]; exact hbytes)
  rw [frameBytes_read] at htxn
  have hend : iterate .opRead 4 begun =
      .next ({ begun with resp := bytes }.between (rxnTrace (Opcode.read :: addrBytes s.start) bytes) 2 .xfer .desel).endRead :=
    htxn.trans (afterTxn_read rfl _ 2 (.inl rfl))
  rw [iterate_add 2 5 hstart, iterate_add 4 1 hend, iterate_one]
  refine (exec_complete (o := .read) rfl).trans (congrArg _ ?_)
  simp [State.finish, State.complete, State.writeDst, State.between, State.called, begun, State.accepted, State.markAccepted,
    State.afterOp, State.markFinished, State.goto, rxAnswer_length hbytes]

end Sys2Proof.Machine

/-! The stub behind a `write` and a `read` (`20_memory.md` R56, R60 to R64). -/

namespace Sys2Proof.Machine

@[simp] theorem play_kind (p : Params) (evs : List Event) (d : Device) : (d.play p evs).kind = d.kind := by
  induction evs generalizing d with
  | nil => rfl
  | cons e evs ih => rw [Device.play_cons, ih, onEvent_kind]

/-- A complete window of a stub has the effect of its frame. -/
theorem play_txnTrace_stub {d : Device} (hk : d.kind = .stub) (p : Params) (f : List Byte) :
    d.play p (txnTrace f) = d.startWindow.closed.execute p (winFrame f) :=
  endWindow_stub (d := { d.startWindow with win := f }) hk p

/-- The write gate lets a mutating frame have its effect on a stub's array, whatever the latch was before (`41_write_gate.md` R107). -/
theorem play_gateTrace_stub {d : Device} {f : List Byte} (hk : d.kind = .stub) (hf : (winFrame f).mutates = true) (p : Params)
    (t : DelayParam) : ∃ draw, (d.play p (gateTrace f t)).flash = mutated .stub p draw (winFrame f) d.flash := by
  let enabled := d.play p (txnTrace [Opcode.wren])
  let done := enabled.play p (txnTrace f)
  have henabled : enabled = { d.startWindow.closed with wel := true } := play_txnTrace_stub hk p _
  have hmutated : done.flash = mutated .stub p d.draws (winFrame f) d.flash := by
    have hkind : enabled.kind = .stub := by simp [enabled, hk]
    have hdone : done = enabled.startWindow.closed.execute p (winFrame f) := play_txnTrace_stub hkind p f
    rw [hdone, execute_of_mutates hf (by rw [henabled]; rfl), henabled, ← hk]
    rfl
  refine ⟨d.draws, ?_⟩
  have hdisable : d.play p (gateTrace f t) = (done.onEvent p (.dly t)).play p (txnTrace [Opcode.wrdi]) := by
    simp [gateTrace, Device.play_append, done, enabled]
  rw [hdisable, play_txnTrace_stub (by simp [done, enabled, hk]), ← hmutated]
  rfl

/-- The address of its three bytes (`30_encoding.md` R72). -/
theorem addrValue_lo8 (a : Nat) : addrValue (lo8 (a / 65536)) (lo8 (a / 256)) (lo8 a) = a % 2 ^ 24 := by
  simp only [addrValue, lo8, BitVec.toNat_ofNat]
  omega

/-- A chunk's frame, as a device sees it. -/
theorem winFrame_chunkFrame {src : List Byte} {base len j : Nat} (hj : j < chunkCount base len) (hl : len ≤ src.length)
    (ha : chunkAddr base j < 2 ^ 24) :
    winFrame (chunkFrame src base len j) = .program (chunkAddr base j) (chunkData src base len j) := by
  have hd : chunkData src base len j ≠ [] := by
    obtain ⟨hpos, -⟩ := chunk_in_page hj
    rw [← chunkData_length hj hl] at hpos
    exact List.ne_nil_of_length_pos hpos
  have h := winFrame_program (lo8 (chunkAddr base j / 65536)) (lo8 (chunkAddr base j / 256)) (lo8 (chunkAddr base j)) hd
  rw [addrValue_lo8, Nat.mod_eq_of_lt ha] at h
  rwa [chunkFrame_eq]

section Stub

variable {p : Params} {d : Device} {src : List Byte} {base len : Nat} (hk : d.kind = .stub) (hp : p.totalBytes ≤ 2 ^ 24)
  (hr : base + len ≤ p.totalBytes) (hl : len ≤ src.length)
  (herased : ∀ x, base ≤ x → x < base + len → d.flash.read x = erasedByte)
include hk hp hr hl herased

/-- The chunks before chunk `j` are in the array, and what comes after them is erased still. -/
theorem read_play_chunksTrace {i : Nat} {b : Byte} (hi : i < len) (hb : src[i]? = some b) (j : Nat) (hj : j ≤ chunkCount base len) :
    (d.play p (chunksTrace src base len j)).flash.read (base + i) = if base + i < chunkAddr base j then b else erasedByte := by
  induction j with
  | zero =>
    rw [if_neg (by simp)]
    exact herased _ (by omega) (by omega)
  | succ j ih =>
    have hj : j < chunkCount base len := hj
    have hlt := (lt_chunkCount_iff base len j).1 hj
    have hend := chunkAddr_add_chunkLen hj
    have hlen := chunkData_length hj hl
    obtain ⟨hpos, hpage⟩ := chunk_in_page hj
    have hframe := winFrame_chunkFrame hj hl (Nat.lt_of_lt_of_le hlt (Nat.le_trans hr hp))
    obtain ⟨draw, hflash⟩ := play_gateTrace_stub (d := d.play p (chunksTrace src base len j)) (f := chunkFrame src base len j)
      (by simp [hk]) (by rw [hframe]; rfl) p .tPp
    have hpage' : chunkAddr base j % 256 + (chunkData src base len j).length ≤ 256 := hlen.symm ▸ hpage
    have htotal : chunkAddr base j + (chunkData src base len j).length ≤ p.totalBytes := by omega
    rw [chunksTrace_succ, Device.play_append, hflash, hframe]
    by_cases hin : chunkAddr base j ≤ base + i ∧ base + i < chunkAddr base (j + 1)
    · obtain ⟨k, hk⟩ := Nat.exists_eq_add_of_le hin.1
      obtain ⟨hklt, hbyte⟩ := List.getElem?_eq_some_iff.1 ((chunkData_getElem? (len := len) hk (by omega)).trans hb)
      have hold := ih (Nat.le_of_lt hj)
      rw [if_neg (by omega)] at hold
      rw [if_pos hin.2, hk, read_mutated_program hpage' htotal draw _ hklt, ← hk, hold, hbyte]
      exact BitVec.allOnes_and
    · rw [read_mutated_program_other hpage' htotal draw _ (by omega), ih (Nat.le_of_lt hj)]
      exact if_congr (by omega) rfl rfl

/-- After all chunks the range holds the source's bytes. -/
theorem map_read_play_chunksTrace :
    (List.range len).map (fun i => (d.play p (chunksTrace src base len (chunkCount base len))).flash.read (base + i)) = src.take len := by
  refine List.ext_getElem (by simp [hl]) fun i hi _ => ?_
  have hi : i < len := by simpa using hi
  have hend := mt (lt_chunkCount_iff base len (chunkCount base len)).2 (Nat.lt_irrefl _)
  have hread := read_play_chunksTrace hk hp hr hl herased hi (List.getElem?_eq_getElem (Nat.lt_of_lt_of_le hi hl)) _ (Nat.le_refl _)
  rw [if_pos (by omega)] at hread
  simpa using hread

end Stub

/-- In a window with a reading frame a stub drives the bytes of its array (`20_memory.md` R63). -/
theorem respond_read {d : Device} {a : Nat} (hk : d.kind = .stub) (hf : winFrame d.win = .read a) (p : Params) (n : Nat) :
    d.respond p n = (List.range n).map (fun i => d.flash.read ((a + d.rxpos + i) % p.totalBytes)) := by
  simp [Device.respond, hk, DeviceKind.hasBusy, hf]

/-- After a `READ` frame for a range that exists, they are the bytes of the range. -/
theorem respond_readFrame {p : Params} {d : Device} {a n : Nat} (hk : d.kind = .stub) (hp : p.totalBytes ≤ 2 ^ 24)
    (hr : a + n ≤ p.totalBytes) :
    (d.play p [.sel, .tx (Opcode.read :: addrBytes a) .ok]).respond p n = (List.range n).map (fun i => d.flash.read (a + i)) := by
  have hframe : winFrame (Opcode.read :: addrBytes a) = .read (a % 2 ^ 24) := congrArg WinFrame.read (addrValue_lo8 a)
  have hrespond : (d.play p [.sel, .tx (Opcode.read :: addrBytes a) .ok]).respond p n =
      (List.range n).map (fun i => d.flash.read ((a % 2 ^ 24 + 0 + i) % p.totalBytes)) :=
    respond_read (d := { d.startWindow with win := Opcode.read :: addrBytes a }) hk hframe p n
  rw [hrespond]
  refine List.map_congr_left fun i hi => ?_
  have hi := List.mem_range.1 hi
  rw [Nat.mod_eq_of_lt (show a < 2 ^ 24 by omega), Nat.add_zero, Nat.mod_eq_of_lt (by omega)]

/-- Settles O58: the chunks fill the erased range, and the read finds them there. -/
theorem writeThenReadReturnsTheBytes : Obligations.WriteThenReadReturnsTheBytes := by
  unfold Obligations.WriteThenReadReturnsTheBytes
  intro s h hcfg hans hk hr hsrc hdst herased
  have hmax : s.cfg.totalBytes ≤ 2 ^ 24 := by
    obtain ⟨-, hmax, -⟩ := hcfg
    exact hmax
  let t := s.written (chunkCount s.start s.len)
  have hready : t.ready := by
    obtain ⟨-, -, hbound⟩ := h
    exact ⟨rfl, rfl, hbound⟩
  have hnone : t.answers = [] := by simp [t, hans]
  have hstored : (List.range t.len).map (fun i => t.dev.flash.read (t.start + i)) = s.src.take s.len :=
    map_read_play_chunksTrace hk hmax hr hsrc herased
  have hbytes : (t.called [.sel, .tx (Opcode.read :: addrBytes t.start) .ok] 1).rxAnswer t.len = .ok (s.src.take s.len) := by
    have hdriven := respond_readFrame (d := t.dev) (by simp [t, hk]) hmax hr
    simp only [State.rxAnswer, State.called, hnone]
    exact congrArg RxAnswer.ok (hdriven.trans hstored)
  have hwrite := iterate_opWrite h hcfg hr hsrc (by simp [hans])
  have hread := iterate_opRead hready hr hdst (txAnswer_of_noErr (by simp [hnone])) hbytes
  exact ⟨_, 7, t, _, hwrite, rfl, rfl, hread, rfl, rfl, List.take_left' (by simp [hsrc])⟩

end Sys2Proof.Machine

/-! The two encodings (`30_encoding.md`): what every frame and every command word decodes to, and what is sent under the invariant. -/

namespace Sys2Proof.Machine

/-! Bytes and addresses. -/

@[simp] theorem lo8_toNat (a : Nat) : (lo8 a).toNat = a % 256 := BitVec.toNat_ofNat a 8

/-- The address bytes of the address of three bytes are these bytes. -/
theorem addrBytes_addrOfBytes (b2 b1 b0 : Byte) : addrBytes (addrOfBytes b2 b1 b0).toNat = [b2, b1, b0] := by
  have h2 := b2.isLt
  have h1 := b1.isLt
  have h0 := b0.isLt
  have hvalue : (addrOfBytes b2 b1 b0).toNat = addrValue b2 b1 b0 :=
    (BitVec.toNat_ofNat _ 24).trans (Nat.mod_eq_of_lt (by simp only [addrValue]; omega))
  rw [hvalue]
  simp only [addrBytes, List.cons.injEq, and_true]
  refine ⟨?_, ?_, ?_⟩ <;> apply BitVec.eq_of_toNat_eq <;> simp only [lo8_toNat, addrValue] <;> omega

/-! What decodes is the frame of the instruction, format by format (`30_encoding.md` R71). -/

theorem decodeBare_frameBytes {op : Byte} {i : Instr} {rest : List Byte} {is : List Instr} (hi : frameBytes i = [op])
    (h : decodeBare op i rest = .instrs is) : ∃ i, is = [i] ∧ frameBytes i = op :: rest := by
  cases rest with
  | nil => cases h; exact ⟨i, rfl, hi⟩
  | cons b rest => cases h

theorem decodeAddressed_frameBytes {op : Byte} {i : Addr → Instr} {rest : List Byte} {is : List Instr}
    (hi : ∀ a, frameBytes (i a) = op :: addrBytes a.toNat) (h : decodeAddressed op i rest = .instrs is) :
    ∃ i, is = [i] ∧ frameBytes i = op :: rest := by
  unfold decodeAddressed at h
  split at h
  · next b2 b1 b0 =>
    cases h
    exact ⟨_, rfl, by rw [hi, addrBytes_addrOfBytes]⟩
  · cases h

theorem decodeFastRead_frameBytes {rest : List Byte} {is : List Instr} (h : decodeFastRead rest = .instrs is) :
    ∃ i, is = [i] ∧ frameBytes i = Opcode.fread :: rest := by
  unfold decodeFastRead at h
  split at h
  · next b2 b1 b0 dummy =>
    cases h
    exact ⟨_, rfl, congrArg (fun l => Opcode.fread :: (l ++ [dummy])) (addrBytes_addrOfBytes b2 b1 b0)⟩
  · cases h

theorem decodeProgram_frameBytes {rest : List Byte} {is : List Instr} (h : decodeProgram rest = .instrs is) :
    ∃ i, is = [i] ∧ frameBytes i = Opcode.pp :: rest := by
  unfold decodeProgram at h
  split at h
  · next b2 b1 b0 d =>
    split at h
    · cases h
      exact ⟨_, rfl, congrArg (fun l => Opcode.pp :: (l ++ d)) (addrBytes_addrOfBytes b2 b1 b0)⟩
    · cases h
  · cases h

theorem decodeReset_cases {rest : List Byte} {is : List Instr} (h : decodeReset rest = .instrs is) :
    rest = [Opcode.rst] ∧ is = [.rsten, .rst] := by
  unfold decodeReset at h
  split at h
  · split at h
    · next hb => cases h; exact ⟨by rw [hb], rfl⟩
    · cases h
  · cases h

/-- Everything a window that decodes can be: the reset frame, or the frame of the one instruction it decodes to. -/
theorem decodeFrame_cases {bytes : List Byte} {is : List Instr} (h : decodeFrame bytes = .instrs is) :
    (bytes = [Opcode.rsten, Opcode.rst] ∧ is = [.rsten, .rst]) ∨ ∃ i, is = [i] ∧ frameBytes i = bytes := by
  cases bytes with
  | nil => cases h
  | cons op rest =>
    simp only [decodeFrame] at h
    split_ifs at h with hwren hwrdi hrdid hce hrsten hread hse hfread hpp <;> subst op
    · exact .inr (decodeBare_frameBytes rfl h)
    · exact .inr (decodeBare_frameBytes rfl h)
    · exact .inr (decodeBare_frameBytes rfl h)
    · exact .inr (decodeBare_frameBytes rfl h)
    · obtain ⟨rfl, rfl⟩ := decodeReset_cases h
      exact .inl ⟨rfl, rfl⟩
    · exact .inr (decodeAddressed_frameBytes (fun _ => rfl) h)
    · exact .inr (decodeAddressed_frameBytes (fun _ => rfl) h)
    · exact .inr (decodeFastRead_frameBytes h)
    · exact .inr (decodeProgram_frameBytes h)

/-- A window that decodes is the frame of every instruction it decodes to. -/
theorem frameBytes_of_mem_decodeFrame {bytes : List Byte} {is : List Instr} (h : decodeFrame bytes = .instrs is) {i : Instr}
    (hi : i ∈ is) : frameBytes i = bytes := by
  obtain ⟨rfl, rfl⟩ | ⟨j, rfl, hj⟩ := decodeFrame_cases h
  · simp only [List.mem_cons, List.not_mem_nil, or_false] at hi
    obtain rfl | rfl := hi <;> rfl
  · rw [List.mem_singleton.1 hi, hj]

/-! Command words (`30_encoding.md` R80, R81). -/

theorem decodeCmd_congr {w v : Nat} (h : w % 8 = v % 8) : decodeCmd w = decodeCmd v := congrArg opOfCode h

/-- A `CMD` of at least three bits keeps the field `OP` of what is written to it. -/
theorem hold_mod_eight {p : Params} (hp : 3 ≤ p.opw) (w : Nat) : p.hold w % 8 = w % 8 :=
  Nat.mod_mod_of_dvd w (pow_dvd_pow 2 hp)

/-! The frame of a position, under the invariant. -/

theorem hasTxn_of_frame {s : State} {f : List Byte} (hf : s.frame = some f) : s.pc.stage.hasTxn = true := by
  cases hs : s.pc.stage <;> simp only [State.frame, hs] at hf
  case idle | chk | dly | fin => cases hf
  all_goals rfl

theorem mem_of_wireInstr {s : State} {f : List Byte} {is : List Instr} {i : Instr} (hf : s.frame = some f)
    (hd : decodeFrame f = .instrs is) (hi : s.wireInstr = some i) : i ∈ is := by
  simp only [State.wireInstr, hf, hd] at hi
  exact List.mem_of_getElem? hi

/-- The mutating frame of a gated operation decodes to a well-formed instruction: a chunk ends in its page, a sector begins at a multiple
of its size. -/
theorem State.InRange.mutFrame_wf {s : State} (h : s.InRange) {f : List Byte} (hf : s.mutFrame = some f) :
    ∃ i, decodeFrame f = .instrs [i] ∧ i.wf = true := by
  cases hop : s.op <;> simp only [State.mutFrame, hop] at hf <;> cases hf
  case write =>
    obtain ⟨-, -, -, -, hlt, hrem, hchunk, -⟩ := h.write hop
    have hlen := h.srcSlice_length hop
    have hwf : (Instr.pp (BitVec.ofNat 24 s.cur) (s.srcSlice (s.cur - s.base) s.chunk)).wf = true := by
      simp only [Instr.wf, hlen, BitVec.toNat_ofNat, Config.pageSize, Bool.and_eq_true, decide_eq_true_eq]
      omega
    refine ⟨_, decodeFrame_pp s.cur ?_, hwf⟩
    rw [hlen, Config.pageSize]
    omega
  case eraseSector =>
    obtain ⟨hbase, -⟩ := h.eraseSector hop
    refine ⟨_, decodeFrame_se s.base, decide_eq_true ?_⟩
    simp only [hbase, State.sectorStart, Config.sectorSize, BitVec.toNat_ofNat]
    omega
  case eraseChip => exact ⟨.ce, rfl, rfl⟩

/-- The frame of an ungated operation decodes to well-formed instructions. -/
theorem xferFrame_wf {s : State} {f : List Byte} (hf : s.xferFrame = some f) :
    ∃ is, decodeFrame f = .instrs is ∧ ∀ i ∈ is, i.wf = true := by
  cases hop : s.op <;> simp only [State.xferFrame, hop] at hf <;> cases hf
  case reset => exact ⟨[.rsten, .rst], rfl, by decide⟩
  case readId => exact ⟨[.rdid], rfl, by decide⟩
  case read => exact ⟨_, decodeFrame_read s.base, by simp [Instr.wf]⟩
  case fastRead => exact ⟨_, decodeFrame_fread s.base s.cfg.dummy, by simp [Instr.wf]⟩

/-- Under the invariant the frame of a position decodes to well-formed instructions. -/
theorem Inv.frame_wf {s : State} (h : Inv s) {f : List Byte} (hf : s.frame = some f) :
    ∃ is, decodeFrame f = .instrs is ∧ ∀ i ∈ is, i.wf = true := by
  cases hs : s.pc.stage <;> simp only [State.frame, hs] at hf
  case idle | chk | dly | fin => cases hf
  case en => cases hf; exact ⟨[.wren], rfl, by decide⟩
  case dis => cases hf; exact ⟨[.wrdi], rfl, by decide⟩
  case xfer => exact xferFrame_wf hf
  -- `MUT` remains, whose name is a keyword of Lean
  next =>
    obtain ⟨i, hd, hwf⟩ := (h.inRange (by simp [hs])).mutFrame_wf hf
    exact ⟨[i], hd, by simpa using hwf⟩

/-! The obligations on the encodings. -/

/-- Settles O3, constructor by constructor. -/
theorem decodeTakesBackEveryEncoding : Obligations.DecodeTakesBackEveryEncoding := by
  unfold Obligations.DecodeTakesBackEveryEncoding
  intro i
  cases i with
  | wren => exact Laws.RoundTrip.wren
  | wrdi => exact Laws.RoundTrip.wrdi
  | rsten => exact Laws.RoundTrip.rsten
  | rst => exact Laws.RoundTrip.rst
  | rdid => exact Laws.RoundTrip.rdid
  | read a => exact Laws.RoundTrip.read a
  | fread a dummy => exact Laws.RoundTrip.fread a dummy
  | pp a d => exact Laws.RoundTrip.pp a d
  | se a => exact Laws.RoundTrip.se a
  | ce => exact Laws.RoundTrip.ce
  | opReset => exact Laws.RoundTrip.opReset
  | opReadId => exact Laws.RoundTrip.opReadId
  | opRead => exact Laws.RoundTrip.opRead
  | opFastRead => exact Laws.RoundTrip.opFastRead
  | opEraseSector => exact Laws.RoundTrip.opEraseSector
  | opEraseChip => exact Laws.RoundTrip.opEraseChip
  | opWrite => exact Laws.RoundTrip.opWrite
  | opInit => exact Laws.RoundTrip.opInit

/-- Settles O4, by what a window that decodes can be. -/
theorem everyDecodedFrameEncodesBack : Obligations.EveryDecodedFrameEncodesBack := by
  unfold Obligations.EveryDecodedFrameEncodesBack
  intro bytes is h
  refine ⟨?_, fun i hi => frameBytes_of_mem_decodeFrame h hi⟩
  obtain ⟨-, rfl⟩ | ⟨i, rfl, -⟩ := decodeFrame_cases h <;> exact List.cons_ne_nil _ _

/-- Settles O48: the instruction at the position has an address that exists (`Inv.wireInstr_exists`), is one of those the frame decodes
to, and these are well formed and have that frame. -/
theorem everySentFrameIsWellFormed : Obligations.EverySentFrameIsWellFormed := by
  unfold Obligations.EverySentFrameIsWellFormed
  intro s f h hf
  have hs := hasTxn_of_frame hf
  refine ⟨?sent, fun hx ho => ?reads⟩
  case sent =>
    obtain ⟨i, hi, hfits, -⟩ := h.wireInstr_exists hs
    obtain ⟨is, hd, hwf⟩ := h.frame_wf hf
    have hmem := mem_of_wireInstr hf hd hi
    exact ⟨i, (instrAt_txn hs).trans hi, hwf i hmem, hfits, frameBytes_of_mem_decodeFrame hd hmem⟩
  case reads =>
    obtain ⟨-, hend, -⟩ := (h.inRange (by simp [hx])).reads ho
    exact hend

/-- Settles O1. -/
theorem opcodesMatchTheTable : Obligations.OpcodesMatchTheTable := by
  unfold Obligations.OpcodesMatchTheTable
  refine ⟨rfl, rfl, rfl, rfl, rfl, rfl, fun _ => rfl, fun _ _ => rfl, fun _ _ => rfl, fun _ => rfl, by decide, fun s =>
    ⟨rfl, fun _ => rfl, fun _ _ => rfl, fun _ _ => rfl, fun _ => rfl, ?noResponse⟩⟩
  case noResponse =>
    simp [State.respLen]

/-- Settles O2. -/
theorem writtenOutWordsDecode : Obligations.WrittenOutWordsDecode := by
  unfold Obligations.WrittenOutWordsDecode
  exact ⟨rfl, rfl, rfl, rfl, rfl, rfl, rfl, rfl⟩

/-- Settles O5: none of the nine tests of byte 0 succeeds. -/
theorem otherFirstBytesAreInvalid : Obligations.OtherFirstBytesAreInvalid := by
  unfold Obligations.OtherFirstBytesAreInvalid
  intro b rest hb
  simp only [firstBytes, List.mem_cons, List.not_mem_nil, or_false, not_or] at hb
  obtain ⟨hwren, hwrdi, hrsten, hrdid, hread, hfread, hpp, hse, hce⟩ := hb
  simp only [decodeFrame, hwren, hwrdi, hrsten, hrdid, hread, hfread, hpp, hse, hce, if_false]

/-- Settles O6. -/
theorem addressBytesMostSignificantFirst : Obligations.AddressBytesMostSignificantFirst := by
  unfold Obligations.AddressBytesMostSignificantFirst
  refine ⟨fun _ => rfl, fun a ha => ⟨?_, lo8_toNat _, lo8_toNat a⟩, by decide⟩
  rw [lo8_toNat]
  omega

/-- Settles O7. -/
theorem commandWordNamesItsOperation : Obligations.CommandWordNamesItsOperation := by
  unfold Obligations.CommandWordNamesItsOperation
  refine ⟨fun w v h => ?ignored, rfl, fun _ => rfl, fun p w hp => ?held⟩
  case ignored => rw [decode, decode, decodeCmd_congr h]
  case held =>
    obtain ⟨-, -, hopw⟩ := hp
    exact decodeCmd_congr (hold_mod_eight hopw w)

end Sys2Proof.Machine

/-! The ten wire instructions (`40_wire_instructions.md`): each call of a transaction, and the transaction whole. -/

namespace Sys2Proof.Machine

/-! The four calls of a wire instruction (R90). -/

section WireCalls

variable {i : Instr} {s : State} (hw : i.isWire = true) (hf : i.fits s.cfg = true) (hs : s.pc.stage.hasTxn = true)
include hw hf hs

theorem exec_select (hb : s.pc.sub = .sel) : exec i s = .next s.select := by
  rw [exec_wire hw hf, txnStep_sel hs hb]

theorem exec_transmit (hb : s.pc.sub = .tx) : exec i s = .next (s.transmit (frameBytes i) (s.respLen i).isSome) := by
  rw [exec_wire hw hf, txnStep_tx hs hb]

theorem exec_receive (hb : s.pc.sub = .rx) {n : Nat} (hn : s.respLen i = some n) : exec i s = .next (s.receive n) := by
  rw [exec_wire hw hf, hn, txnStep_rx hs hb]

theorem exec_deselect (hb : s.pc.sub = .desel) : exec i s = afterTxn s.deselect := by
  rw [exec_wire hw hf, txnStep_desel hs hb]

end WireCalls

/-- No instruction with a response phase has a condition on its address. -/
theorem fits_of_respLen {i : Instr} {s : State} {n : Nat} (h : s.respLen i = some n) (p : Params) : i.fits p = true := by
  cases i with
  | pp a d => cases h
  | se a => cases h
  | _ => rfl

/-! A failed Transmit or Receive, with either value of `DESELECT_ON_FAIL`. -/

theorem failedCall_deselecting {s : State} (h : s.cfg.deselectOnFail = true) (e : Event) (k : ErrKind) :
    (s.emit e).dropAnswer.failCall k =
      { s with trace := s.trace ++ [e], dev := s.dev.onEvent s.cfg e, answers := s.answers.tail, pending := translate k,
               pc := ⟨s.pc.stage, .desel⟩ } :=
  failCall_deselecting (s := (s.emit e).dropAnswer) h k

theorem failedCall_aborting {s : State} (h : s.cfg.deselectOnFail = false) (e : Event) (k : ErrKind) :
    (s.emit e).dropAnswer.failCall k = (s.emit e).dropAnswer.raise (translate k) :=
  failCall_aborting (s := (s.emit e).dropAnswer) h k

/-! The obligations on the calls. -/

/-- Settles O18: the call at Select is `State.select`. -/
theorem selectOpensTheWindow : Obligations.SelectOpensTheWindow := by
  unfold Obligations.SelectOpensTheWindow
  intro i s hw hf hs hb
  exact exec_select hw hf hs hb

/-- Settles O19, by the three ways a Transmit can go. -/
theorem transmitSendsTheFrame : Obligations.TransmitSendsTheFrame := by
  unfold Obligations.TransmitSendsTheFrame
  intro i s hw hf hs hb
  rw [exec_transmit hw hf hs hb]
  refine ⟨fun h => ?ok, fun k h hd => ?deselecting, fun k h hd => ?aborting⟩
  case ok => rw [transmit_ok h]; rfl
  case deselecting => rw [transmit_err h, failedCall_deselecting hd]
  case aborting =>
    rw [transmit_err h, failedCall_aborting hd]
    exact ⟨_, rfl, by simp⟩

/-- Settles O20, by the three ways a Receive can go. -/
theorem receiveTakesTheResponse : Obligations.ReceiveTakesTheResponse := by
  unfold Obligations.ReceiveTakesTheResponse
  intro i s n hw hs hb hn
  rw [exec_receive hw (fits_of_respLen hn s.cfg) hs hb hn]
  refine ⟨fun bytes h => ⟨rxAnswer_length h, ?ok⟩, fun k h hd => ?deselecting, fun k h hd => ?aborting⟩
  case ok => rw [receive_ok h]; rfl
  case deselecting => rw [receive_err h, failedCall_deselecting hd]
  case aborting =>
    rw [receive_err h, failedCall_aborting hd]
    exact ⟨_, rfl, by simp⟩

/-! The transaction whole: the calls of R90 one after another, all answering `ok`. -/

section WireTransaction

variable {i : Instr} {s : State} {g : Stage} (hw : i.isWire = true) (hf : i.fits s.cfg = true) (hg : g.hasTxn = true)
  (hpc : s.pc = ⟨g, .sel⟩) (ha : s.txAnswer = .ok)
include hw hf hg hpc ha

/-- Select and Transmit of a wire instruction. -/
theorem iterate_wire_open (k : Nat) : iterate i (k + 2) s =
    iterate i k (s.window [.sel, .tx (frameBytes i) .ok] 1 (if (s.respLen i).isSome then .rx else .desel)) := by
  have hs : s.pc.stage.hasTxn = true := by rwa [hpc]
  have hb : s.pc.sub = .sel := by rw [hpc]
  have hresp : s.select.respLen i = s.respLen i := rfl
  rw [iterate_succ (exec_select hw hf hs hb), iterate_succ (exec_transmit (s := s.select) hw hf hs rfl),
    transmit_ok (s := s.select) ha, hresp]
  simp [State.window, State.called, State.select, State.emit, State.goto, State.dropAnswer]

/-- A wire instruction without response phase. -/
theorem iterate_wire_txn (hr : s.respLen i = none) :
    iterate i 3 s = afterTxn (s.between (txnTrace (frameBytes i)) 1 g .desel) := by
  have hs : s.pc.stage.hasTxn = true := by rwa [hpc]
  let sent := s.window [.sel, .tx (frameBytes i) .ok] 1 .desel
  have hopen : iterate i 3 s = iterate i 1 sent := by simpa [hr] using iterate_wire_open hw hf hg hpc ha 1
  rw [hopen, iterate_one, exec_deselect (s := sent) hw hf hs rfl]
  simp [sent, State.window, State.between, State.called, State.deselect, State.emit, txnTrace, hpc]

/-- A wire instruction with a response phase. -/
theorem iterate_wire_rxn {n : Nat} {bytes : List Byte} (hr : s.respLen i = some n)
    (hbytes : (s.called [.sel, .tx (frameBytes i) .ok] 1).rxAnswer n = .ok bytes) :
    iterate i 4 s = afterTxn ({ s with resp := bytes }.between (rxnTrace (frameBytes i) bytes) 2 g .desel) := by
  have hs : s.pc.stage.hasTxn = true := by rwa [hpc]
  let sent := s.window [.sel, .tx (frameBytes i) .ok] 1 .rx
  let received := { s with resp := bytes }.window [.sel, .tx (frameBytes i) .ok, .rx n (.ok bytes)] 2 .desel
  have hopen : iterate i 4 s = iterate i 2 sent := by simpa [hr] using iterate_wire_open hw hf hg hpc ha 2
  have hreceive : sent.receive n = received := by
    rw [receive_ok (s := sent) hbytes]
    simp [sent, received, State.window, State.called, State.emit, State.dropAnswer, -List.drop_one]
  rw [hopen, iterate_succ (exec_receive (s := sent) hw hf hs rfl hr), hreceive, iterate_one,
    exec_deselect (s := received) hw hf hs rfl]
  simp [received, State.window, State.between, State.called, State.deselect, State.emit, rxnTrace, rxAnswer_length hbytes, hpc]

end WireTransaction

/-- A wire instruction whose response the environment supplies. -/
theorem iterate_wire_data {s : State} {i : Instr} {g : Stage} {a : Answer} {bytes : List Byte} {rest : List Answer}
    (hw : i.isWire = true) (hg : g.hasTxn = true) (hpc : s.pc = ⟨g, .sel⟩) (ha : a.isErr = false)
    (hans : s.answers = a :: .data bytes :: rest) (hr : s.respLen i = some bytes.length) :
    iterate i 4 s = afterTxn ({ s with resp := bytes }.between (rxnTrace (frameBytes i) bytes) 2 g .desel) := by
  have htx : s.txAnswer = .ok := txAnswer_of_take (n := 0) (by simp [hans, ha])
  have hrx : (s.called [.sel, .tx (frameBytes i) .ok] 1).rxAnswer bytes.length = .ok bytes :=
    rxAnswer_data (rest := rest) (by simp [State.called, hans]) rfl
  exact iterate_wire_rxn hw (fits_of_respLen hr s.cfg) hg hpc htx hr hrx

/-! What follows the Deselect. -/

section AfterWire

variable {s : State} (hp : s.pending = .ok) (evs : List Event) (n : Nat)
include hp

theorem afterTxn_reset (ho : s.op = .reset) :
    afterTxn (s.between evs n .xfer .desel) = .next (s.between evs n .dly .dash) := by
  simp [afterTxn, afterXfer, hp, ho, State.between, State.called, State.goto]

theorem afterTxn_readId (ho : s.op = .readId) :
    afterTxn (s.between evs n .xfer .desel) = .next (s.between evs n .xfer .desel).endReadId := by
  simp [afterTxn, afterXfer, hp, ho]

end AfterWire

/-- The state after one window, at the next position, as the obligations write it. -/
theorem State.between_one (s : State) (evs : List Event) (g : Stage) (b : Sub) :
    s.between evs 1 g b =
      { s with trace := s.trace ++ evs, dev := s.dev.play s.cfg evs, answers := s.answers.tail, selected := false, pc := ⟨g, b⟩ } := by
  simp [State.between, State.called]

/-- The identifier of three bytes is zero where the number they make is (`43_facade_ops.md` R127). -/
theorem addrOfBytes_eq_zero_iff (b2 b1 b0 : Byte) : addrOfBytes b2 b1 b0 = 0 ↔ addrValue b2 b1 b0 = 0 := by
  have h2 := b2.isLt
  have h1 := b1.isLt
  have h0 := b0.isLt
  have hlt : addrValue b2 b1 b0 < 2 ^ 24 := by simp only [addrValue]; omega
  rw [← BitVec.toNat_inj, addrOfBytes, BitVec.toNat_ofNat, Nat.mod_eq_of_lt hlt]
  rfl

/-! The obligations on the whole instructions. -/

/-- Settles O23: the transaction, and after its Deselect the mutating stage. -/
theorem writeEnableIsOneTransaction : Obligations.WriteEnableIsOneTransaction := by
  unfold Obligations.WriteEnableIsOneTransaction
  intro s hpc hp ha
  rw [iterate_wire_txn rfl rfl rfl hpc ha rfl, afterTxn_enable hp, State.between_one]
  rfl

/-- Settles O24: the three instructions share the transaction, and each fits at an address that exists. -/
theorem mutatingInstructionIsOneTransaction : Obligations.MutatingInstructionIsOneTransaction := by
  unfold Obligations.MutatingInstructionIsOneTransaction
  intro s a d i hi hx hpc hp ha
  have hmut : i.isWire = true ∧ i.fits s.cfg = true ∧ s.respLen i = none := by
    simp only [List.mem_cons, List.not_mem_nil, or_false] at hi
    obtain rfl | rfl | rfl := hi
    · exact ⟨rfl, decide_eq_true hx, rfl⟩
    · exact ⟨rfl, decide_eq_true hx, rfl⟩
    · exact ⟨rfl, rfl, rfl⟩
  obtain ⟨hw, hf, hr⟩ := hmut
  rw [iterate_wire_txn hw hf rfl hpc ha hr, afterTxn_mutate hp, State.between_one]

/-- Settles O25: the transaction of the disable step, then the three ways `afterDisable` can go on. -/
theorem writeDisableIsOneTransaction : Obligations.WriteDisableIsOneTransaction := by
  unfold Obligations.WriteDisableIsOneTransaction
  intro s hpc hp ha sent
  have htxn : iterate .wrdi 3 s = afterDisable (s.between (txnTrace [0x04]) 1 .dis .desel) := by
    rw [← afterTxn_disable hp]
    exact iterate_wire_txn rfl rfl rfl hpc ha rfl
  rw [htxn, State.between_one]
  refine ⟨fun ho => ?erase, fun ho hlt => ?nextChunk, fun ho hend => ?lastChunk⟩
  case erase =>
    simp only [List.mem_cons, List.not_mem_nil, or_false] at ho
    obtain ho | ho := ho <;> simp [afterDisable, ho, State.complete, sent, hp]
  case nextChunk =>
    simp only [afterDisable, ho]
    rw [loopTest_next (by exact hlt)]
    simp [State.advance, sent, ho]
  case lastChunk =>
    simp only [afterDisable, ho]
    rw [loopTest_end (by exact hend)]
    simp [State.advance, State.complete, sent, hp, ho]

/-- Settles O26: both rows have the two-byte frame. -/
theorem resetFrameIsOneTransaction : Obligations.ResetFrameIsOneTransaction := by
  unfold Obligations.ResetFrameIsOneTransaction
  intro s i hi hpc ho hp ha
  have hreset : i.isWire = true ∧ i.fits s.cfg = true ∧ s.respLen i = none ∧ frameBytes i = [0x66, 0x99] := by
    simp only [List.mem_cons, List.not_mem_nil, or_false] at hi
    obtain rfl | rfl := hi <;> exact ⟨rfl, rfl, rfl, rfl⟩
  obtain ⟨hw, hf, hr, hframe⟩ := hreset
  rw [iterate_wire_txn hw hf rfl hpc ha hr, hframe, afterTxn_reset hp _ 1 ho, State.between_one]

/-- Settles O27: the end of `read_id` turns on whether the identifier is zero. -/
theorem identifyIsOneTransaction : Obligations.IdentifyIsOneTransaction := by
  unfold Obligations.IdentifyIsOneTransaction
  intro s a b2 b1 b0 rest hpc ho hp ha hans v evs
  let received := { s with resp := [b2, b1, b0] }.between evs 2 .xfer .desel
  have hend : iterate .rdid 4 s = .next received.endReadId :=
    (iterate_wire_data rfl rfl hpc ha hans rfl).trans
      (afterTxn_readId (s := { s with resp := [b2, b1, b0] }) hp evs 2 ho)
  have hzero : idOfBytes received.resp = 0 ↔ v = 0 := addrOfBytes_eq_zero_iff b2 b1 b0
  rw [hend, State.endReadId]
  refine ⟨fun hv => ?identified, fun hv => ?noResponse⟩
  case identified =>
    rw [if_neg (mt hzero.1 hv)]
    simp [received, State.between, State.called, State.complete, hp, hans, idOfBytes, addrOfBytes, addrValue, v]
  case noResponse =>
    rw [if_pos (hzero.2 hv)]
    exact ⟨_, rfl, by simp [received, State.between, State.called]⟩

/-- Settles O28: both instructions share the transaction and end as a read. -/
theorem readingInstructionIsOneTransaction : Obligations.ReadingInstructionIsOneTransaction := by
  unfold Obligations.ReadingInstructionIsOneTransaction
  intro s x dummy i a bytes rest hi hpc ho hp ha hans hlen
  have hread : i.isWire = true ∧ s.respLen i = some bytes.length := by
    rw [hlen]
    simp only [List.mem_cons, List.not_mem_nil, or_false] at hi
    obtain rfl | rfl := hi <;> exact ⟨rfl, rfl⟩
  obtain ⟨hw, hr⟩ := hread
  rw [iterate_wire_data hw rfl hpc ha hans hr, afterTxn_read (s := { s with resp := bytes }) hp _ 2 (by simpa using ho)]
  simp [State.endRead, State.writeDst, State.complete, State.between, State.called, hp, hans, hlen]

end Sys2Proof.Machine

/-! The write gate along each step (`41_write_gate.md` R105): the trace stands with the gate where the sequence position needs it. -/

namespace Sys2Proof.Machine

/-! The gate that a position calls for. -/

/-- Where the trace must stand with the gate, from the Transmit of the enable step to the mutating one; elsewhere nothing is called for. -/
def State.gateDue (s : State) : Option GateState :=
  match s.pc.stage, s.pc.sub with
  | .en, .tx => some .opened
  | .en, .desel => if s.pending = .ok then some .enabling else none
  | .mut, .sel => some .armed
  | .mut, .tx => some .armedOpen
  | _, _ => none

theorem gateDue_eq_some_iff (s : State) (due : GateState) :
    s.gateDue = some due ↔
      (s.pc = ⟨.en, .tx⟩ ∧ due = .opened) ∨ (s.pc = ⟨.en, .desel⟩ ∧ s.pending = .ok ∧ due = .enabling) ∨
        (s.pc = ⟨.mut, .sel⟩ ∧ due = .armed) ∨ (s.pc = ⟨.mut, .tx⟩ ∧ due = .armedOpen) := by
  unfold State.gateDue
  rcases s.pc with ⟨g, b⟩
  dsimp only
  split <;> simp_all [eq_comm]

/-- `g` is what the position calls for, if it calls for anything, and `.enabling` or `.armed` only where that is called for. -/
structure State.GateFits (s : State) (g : GateState) : Prop where
  due : ∀ due, s.gateDue = some due → g = due
  enabled : g = .enabling ∨ g = .armed → s.gateDue = some g

/-- The gate's invariant speaks of the trace through its gate state alone, and of the position through what it calls for. -/
theorem gateInv_iff (s : State) : GateInv s ↔ ∃ g, gateAfter s.trace = some g ∧ s.GateFits g := by
  constructor
  · rintro ⟨hgated, hopen, hsent, hsel, htx, henabling, harmed⟩
    obtain ⟨g, hg⟩ := Option.isSome_iff_exists.1 hgated
    simp only [hg, Option.some.injEq] at hopen hsent hsel htx henabling harmed
    refine ⟨g, hg, fun due hdue => ?_, ?_⟩
    · obtain ⟨hpc, rfl⟩ | ⟨hpc, hp, rfl⟩ | ⟨hpc, rfl⟩ | ⟨hpc, rfl⟩ := (gateDue_eq_some_iff s due).1 hdue
      · exact hopen hpc
      · exact hsent hpc hp
      · exact hsel hpc
      · exact htx hpc
    · rintro (rfl | rfl)
      · simpa [gateDue_eq_some_iff] using henabling rfl
      · simpa [gateDue_eq_some_iff] using harmed rfl
  · rintro ⟨g, hg, hdue, henabled⟩
    simp only [gateDue_eq_some_iff] at hdue henabled
    constructor <;> simp only [hg, Option.isSome_some, Option.some.injEq]
    case enOpen => exact fun hpc => hdue _ (by simp [hpc])
    case enSent => exact fun hpc hp => hdue _ (by simp [hpc, hp])
    case mutSel => exact fun hpc => hdue _ (by simp [hpc])
    case mutOpen => exact fun hpc => hdue _ (by simp [hpc])
    case enablingAt => rintro rfl; simpa using henabled (.inl rfl)
    case armedAt => rintro rfl; simpa using henabled (.inr rfl)

theorem gateFits_of_due {s : State} {due : GateState} (h : s.gateDue = some due) : s.GateFits due :=
  ⟨fun _ h' => Option.some.inj (h.symm.trans h'), fun _ => h⟩

theorem gateFits_of_not_due {s : State} (h : s.gateDue = none) {g : GateState} (hg : g ≠ .enabling ∧ g ≠ .armed) : s.GateFits g :=
  ⟨by simp [h], by simp [hg]⟩

theorem State.GateFits.not_enabled {s : State} {g : GateState} (hfits : s.GateFits g) (h : s.gateDue = none) :
    g ≠ .enabling ∧ g ≠ .armed := by
  refine ⟨fun hg => ?_, fun hg => ?_⟩ <;> simpa [h] using hfits.enabled (by simp [hg])

/-! A step that makes no call, and one that makes one. -/

theorem gateAfter_concat (evs : List Event) (e : Event) : gateAfter (evs ++ [e]) = (gateAfter evs).bind (gateNext · e) := by
  simp [gateAfter]

theorem GateInv.after_quiet {s t : State} (h : GateInv s) (htrace : t.trace = s.trace) (hs : s.gateDue = none)
    (ht : t.gateDue = none) : GateInv t := by
  obtain ⟨g, hg, hfits⟩ := (gateInv_iff s).1 h
  exact (gateInv_iff t).2 ⟨g, htrace ▸ hg, gateFits_of_not_due ht (hfits.not_enabled hs)⟩

theorem GateInv.after_call {s t : State} {e : Event} (h : GateInv s) (htrace : t.trace = s.trace ++ [e])
    (hnext : ∀ g, s.GateFits g → ∃ g', gateNext g e = some g' ∧ t.GateFits g') : GateInv t := by
  obtain ⟨g, hg, hfits⟩ := (gateInv_iff s).1 h
  obtain ⟨g', hg', hfits'⟩ := hnext g hfits
  exact (gateInv_iff t).2 ⟨g', by rw [htrace, gateAfter_concat, hg]; exact hg', hfits'⟩

/-- A call after which the gate is cold, where the next position calls for nothing. -/
theorem GateInv.after_cold {s t : State} {e : Event} (h : GateInv s) (htrace : t.trace = s.trace ++ [e]) (ht : t.gateDue = none)
    (hnext : ∀ g, s.GateFits g → gateNext g e = some .cold) : GateInv t :=
  h.after_call htrace fun g hfits => ⟨.cold, hnext g hfits, gateFits_of_not_due ht (by simp)⟩

/-! The positions that call for nothing. -/

theorem gateDue_eq_none_iff (s : State) :
    s.gateDue = none ↔
      (s.pc.stage = .en → s.pc.sub ≠ .tx ∧ (s.pc.sub = .desel → s.pending ≠ .ok)) ∧
        (s.pc.stage = .mut → s.pc.sub ≠ .sel ∧ s.pc.sub ≠ .tx) := by
  unfold State.gateDue
  split <;> simp_all

theorem gateDue_of_dash {s : State} (h : s.pc.sub = .dash) : s.gateDue = none := by simp [gateDue_eq_none_iff, h]

theorem gateDue_of_stage {s : State} (hen : s.pc.stage ≠ .en) (hmut : s.pc.stage ≠ .mut) : s.gateDue = none := by
  simp [gateDue_eq_none_iff, hen, hmut]

theorem raise_gateDue (s : State) (r : Result) : (s.raise r).gateDue = none := gateDue_of_dash rfl

theorem complete_gateDue (s : State) : s.complete.gateDue = none := gateDue_of_dash rfl

theorem loopTest_gateDue (s : State) : s.loopTest.gateDue = none := by
  obtain ⟨-, h⟩ | h := loopTest_cases s <;> rw [h]
  · rfl
  · exact complete_gateDue s

theorem failCall_gateDue (s : State) (k : ErrKind) : (s.failCall k).gateDue = none := by
  obtain h | ⟨-, h⟩ := failCall_cases s k <;> rw [h]
  · simp [gateDue_eq_none_iff, translate_ne_ok]
  · exact raise_gateDue s _

theorem failCall_trace (s : State) (k : ErrKind) : (s.failCall k).trace = s.trace := by
  obtain h | ⟨-, h⟩ := failCall_cases s k <;> simp [h]

theorem endReadId_gateDue (s : State) : s.endReadId.gateDue = none := by
  obtain h | h := endReadId_cases s <;> rw [h]
  · exact raise_gateDue s _
  · exact complete_gateDue _

/-! The frames: only the mutating stage sends a mutating frame, only the enable step a `WREN`. -/

theorem stage_of_frameMutates {s : State} {f : List Byte} (hf : s.frame = some f) (hm : frameMutates f = true) : s.pc.stage = .mut := by
  cases hs : s.pc.stage <;> simp only [State.frame, hs] at hf
  case idle | chk | dly | fin => cases hf
  case en | dis => cases hf; cases hm
  case xfer => cases ho : s.op <;> simp only [State.xferFrame, ho] at hf <;> cases hf <;> cases hm
  -- `MUT` remains, whose name is a keyword of Lean
  rfl

theorem stage_of_wren {s : State} (hf : s.frame = some [Opcode.wren]) : s.pc.stage = .en := by
  cases hs : s.pc.stage <;> simp only [State.frame, hs] at hf
  case idle | chk | dly | fin | dis => cases hf
  case xfer => cases ho : s.op <;> simp [State.xferFrame, ho] at hf
  case en => rfl
  -- `MUT` remains
  next => cases ho : s.op <;> simp [State.mutFrame, ho] at hf

theorem frame_of_wireInstr {s : State} {i : Instr} (hi : s.wireInstr = some i) : s.frame = some (frameBytes i) := by
  unfold State.wireInstr at hi
  split at hi
  · cases hi
  · next f hf =>
    split at hi
    · next is hd => rw [hf, frameBytes_of_mem_decodeFrame hd (List.mem_of_getElem? hi)]
    · cases hi

/-- Under the invariant a step at the position of a transaction sends the position's frame. -/
theorem Inv.wireStep_frame {s : State} (h : Inv s) (hs : s.pc.stage.hasTxn = true) :
    ∃ f, s.frame = some f ∧ wireStep s = txnStep f s.txnRespLen s := by
  obtain ⟨i, hi, hfits, hlen⟩ := h.wireInstr_exists hs
  exact ⟨frameBytes i, frame_of_wireInstr hi, by rw [wireStep_eq hi, exec_wire (wireInstr_isWire hi) hfits, hlen]⟩

/-! The four calls of a transaction. -/

theorem gateNext_tx_cold {g : GateState} {f : List Byte} {a : TxAnswer} (hmut : frameMutates f = true → g = .armedOpen)
    (hwren : f = [Opcode.wren] → a ≠ .ok) : gateNext g (.tx f a) = some .cold := by
  simp only [gateNext]
  split
  · next hm => exact if_pos (hmut hm)
  · exact if_neg fun ⟨hf, ha, _⟩ => hwren hf ha

theorem GateInv.after_select {s : State} (h : GateInv s) (hb : s.pc.sub = .sel) : GateInv s.select := by
  refine h.after_call (e := .sel) rfl fun g hfits => ?_
  by_cases hs : s.pc.stage = .mut
  · have hg : g = .armed := hfits.due _ (by simp [State.gateDue, hs, hb])
    exact ⟨.armedOpen, if_pos hg, gateFits_of_due (by simp [State.gateDue, State.select, hs])⟩
  · obtain ⟨-, hg⟩ := hfits.not_enabled (by simp [gateDue_eq_none_iff, hs, hb])
    refine ⟨.opened, if_neg hg, ?_⟩
    by_cases hen : s.pc.stage = .en
    · exact gateFits_of_due (by simp [State.gateDue, State.select, hen])
    · exact gateFits_of_not_due (s := s.select) (gateDue_of_stage hen hs) (by simp)

theorem GateInv.after_transmit {s : State} {f : List Byte} (h : GateInv s) (hinv : Inv s) (hb : s.pc.sub = .tx)
    (hf : s.frame = some f) : GateInv (s.transmit f s.txnRespLen.isSome) := by
  have hmut (g : GateState) (hfits : s.GateFits g) (hm : frameMutates f = true) : g = .armedOpen :=
    hfits.due _ (by simp [State.gateDue, stage_of_frameMutates hf hm, hb])
  obtain ha | ⟨k, ha⟩ := txAnswer_ok_or_err s
  · rw [transmit_ok ha]
    by_cases hen : s.pc.stage = .en
    · obtain rfl : [Opcode.wren] = f := by simpa [State.frame, hen] using hf
      have hp : s.pending = .ok := hinv.pending_ok (by simp [hen]) (by simp [hb])
      refine h.after_call (e := .tx [Opcode.wren] .ok) rfl fun g hfits => ⟨.enabling, ?_, gateFits_of_due ?_⟩
      · rw [hfits.due .opened (by simp [State.gateDue, hen, hb])]
        rfl
      · simp [State.gateDue, State.txnRespLen, hen, hp]
    · refine h.after_cold (e := .tx f .ok) rfl ?_ fun g hfits =>
        gateNext_tx_cold (hmut g hfits) fun hw => absurd (stage_of_wren (hw ▸ hf)) hen
      rw [gateDue_eq_none_iff]
      cases s.txnRespLen.isSome <;> simp [hen]
  · rw [transmit_err ha]
    exact h.after_cold (e := .tx f (.err k)) (failCall_trace _ k) (failCall_gateDue _ k) fun g hfits =>
      gateNext_tx_cold (hmut g hfits) (by simp)

theorem GateInv.after_receive {s : State} (h : GateInv s) (hs : s.pc.stage = .xfer) (n : Nat) : GateInv (s.receive n) := by
  refine h.after_cold (congrArg State.trace (s.receive_eq_behind n)) ?_ fun g _ => rfl
  obtain ⟨bytes, -, he⟩ | ⟨e, k, he⟩ := receive_cases s n <;> rw [he]
  · exact gateDue_of_stage (by simp [hs]) (by simp [hs])
  · exact failCall_gateDue _ k

/-- What commutes with `behind` makes no call. -/
theorem trace_of_behind {f : State → Res} (hf : ∀ s d tr, f (s.behind d tr) = Res.behind (f s) d tr) {s t : State}
    (h : f s = .next t) : t.trace = s.trace := by
  have hsame := hf s s.dev s.trace
  rw [State.behind_self, h, Res.behind_next] at hsame
  have ht : t = t.behind _ _ := Host.Outcome.next.inj hsame
  exact (congrArg State.trace ht).trans rfl

theorem GateInv.after_deselect {s t : State} (h : GateInv s) (hb : s.pc.sub = .desel) (ht : afterTxn s.deselect = .next t) :
    GateInv t := by
  have htrace : t.trace = s.trace ++ [.desel] := trace_of_behind afterTxn_behind ht
  by_cases hsent : s.pc.stage = .en ∧ s.pending = .ok
  · obtain ⟨hen, hp⟩ := hsent
    have hnext : t = s.deselect.goto .mut .sel := by
      simpa [afterTxn, hen, hp, eq_comm] using ht
    refine h.after_call htrace fun g hfits => ⟨.armed, if_pos (hfits.due _ ?_), gateFits_of_due ?_⟩
    · simp [State.gateDue, hen, hb, hp]
    · rw [hnext]; rfl
  · have hs : s.gateDue = none := by simpa [gateDue_eq_none_iff, hb] using hsent
    refine h.after_cold htrace ?_ fun g hfits => if_neg (hfits.not_enabled hs).left
    obtain ⟨-, rfl⟩ | ⟨hp, ⟨hg, rfl⟩ | ⟨hg, rfl⟩ | ⟨hg, ho, rfl⟩ | ⟨-, -, rfl⟩ | ⟨-, -, rfl⟩ | ⟨-, -, rfl⟩ | ⟨hg, ho, rfl⟩⟩ :=
      afterTxn_cases ht
    · exact raise_gateDue _ _
    · exact absurd ⟨hg, hp⟩ hsent
    · rfl
    · rfl
    · exact endReadId_gateDue _
    · exact complete_gateDue _
    · exact complete_gateDue _
    · exact loopTest_gateDue _

/-! The other steps. -/

theorem GateInv.after_opCheck {s t : State} (h : GateInv s) (hs : s.pc.stage = .chk) (ht : opCheck s.op s = .next t) : GateInv t := by
  refine h.after_quiet (trace_of_behind (fun s d tr => opCheck_behind s d tr _) ht) (gateDue_of_stage (by simp [hs]) (by simp [hs])) ?_
  cases ho : s.op <;> rw [ho] at ht
  case reset | readId | eraseChip => cases ht; rfl
  case init => cases ht; exact complete_gateDue _
  case read | fastRead =>
    obtain ⟨-, -, rfl⟩ | ⟨-, rfl⟩ := checkRead_cases ht
    · rfl
    · exact raise_gateDue s _
  case eraseSector =>
    obtain ⟨-, rfl⟩ | ⟨-, rfl⟩ := checkEraseSector_cases ht
    · rfl
    · exact raise_gateDue s _
  case write =>
    obtain ⟨-, -, rfl⟩ | ⟨-, rfl⟩ := checkWrite_cases ht
    · exact loopTest_gateDue _
    · exact raise_gateDue s _

theorem GateInv.after_delayStep {s t : State} (h : GateInv s) (ht : delayStep s = .next t) : GateInv t := by
  obtain ⟨d, -, ⟨-, rfl⟩ | ⟨-, rfl⟩⟩ := delayStep_cases ht
  · exact h.after_cold (e := .dly d) rfl (complete_gateDue _) fun _ _ => rfl
  · exact h.after_cold (e := .dly d) rfl rfl fun _ _ => rfl

theorem GateInv.after_txnStep {s t : State} {f : List Byte} (h : GateInv s) (hinv : Inv s) (hf : s.frame = some f)
    (ht : txnStep f s.txnRespLen s = .next t) : GateInv t := by
  obtain ⟨-, ⟨hb, rfl⟩ | ⟨hb, rfl⟩ | ⟨m, -, hb, rfl⟩ | ⟨hb, ht⟩⟩ := txnStep_cases ht
  · exact h.after_select hb
  · exact h.after_transmit hinv hb hf
  · obtain ⟨hs, -⟩ := (txnRespLen_isSome_iff s).1 (hinv.txnRespLen_of_rx hb)
    exact h.after_receive hs m
  · exact h.after_deselect hb ht

theorem GateInv.after_hostWrite {s : State} (h : GateInv s) (hs : s.pc.stage = .idle) (a : HostAct) : GateInv (hostWrite a s.popPort) := by
  have hdue {t : State} (ht : t.pc = s.pc) : t.gateDue = none := gateDue_of_stage (by simp [ht, hs]) (by simp [ht, hs])
  cases a <;> exact h.after_quiet rfl (hdue rfl) (hdue rfl)

/-- Settles O47, by the kind of the step. -/
theorem everyMutationIsEnabledFirst : Obligations.EveryMutationIsEnabledFirst := by
  unfold Obligations.EveryMutationIsEnabledFirst
  intro s t hinv h hstep
  obtain ⟨-, -, rfl⟩ | ⟨a, rest, hs, -, -, -, rfl⟩ | ⟨a, rest, w, hs, hp, ha, -⟩ | ⟨i, hs, hn, -, -⟩ := step_cases hstep
  · exact h
  · exact h.after_hostWrite hs a.act
  · rw [step_command hs hp ha] at hstep
    obtain ⟨-, -, rfl⟩ := accept_cases hstep
    have hpc : (hostWrite a.act s.popPort).pc.stage = .idle := by rw [ha]; exact hs
    exact (h.after_hostWrite hs a.act).after_quiet rfl (gateDue_of_stage (by simp [hpc]) (by simp [hpc])) (gateDue_of_dash rfl)
  · rw [step_eq_exec_op hs hn] at hstep
    cases hg : s.pc.stage
    case idle => exact absurd hg hs
    case chk => exact h.after_opCheck hg (exec_chk hg ▸ hstep)
    case dly => exact h.after_delayStep (exec_dly hg ▸ hstep)
    case fin =>
      rw [exec_fin hg] at hstep
      cases hstep
      exact h.after_quiet rfl (gateDue_of_stage (by simp [hg]) (by simp [hg])) (gateDue_of_dash rfl)
    -- the four transaction stages remain
    all_goals
      have htxn : s.pc.stage.hasTxn = true := by rw [hg]; rfl
      obtain ⟨f, hf, hwire⟩ := hinv.wireStep_frame htxn
      rw [exec_txn htxn, hwire] at hstep
      exact h.after_txnStep hinv hf hstep

end Sys2Proof.Machine

/-! The gated mutation whose Transmit fails (`41_write_gate.md` R107, R108), and the two erases that it ends. -/

namespace Sys2Proof.Machine

/-! A transaction whose Transmit fails. -/

/-- The state that the failure of an operation without outputs leaves for the finish, after the calls `evs`, of which `n` took an
answer (`60_exceptions.md` R147). -/
def State.aborted (s : State) (evs : List Event) (n : Nat) (k : ErrKind) : State :=
  { s.called evs n with selected := !s.cfg.deselectOnFail, pending := translate k, pc := ⟨.fin, .dash⟩ }

theorem State.between_aborted (s : State) (xs ys : List Event) (m n : Nat) (g : Stage) (b : Sub) (k : ErrKind) :
    (s.between xs m g b).aborted ys n k = s.aborted (xs ++ ys) (m + n) k := by
  simp [State.aborted, State.between, State.called, Device.play_append]

theorem txAnswer_of_head {s : State} {k : ErrKind} {rest : List Answer} (h : s.answers = .err k :: rest) : s.txAnswer = .err k := by
  simp [State.txAnswer, h]

/-- A gated operation has no output to spoil. -/
theorem raise_of_gated {s : State} {o : Op} (h : Op.gated o = true) (ho : s.op = o) (r : Result) :
    s.raise r = { s with pending := r, pc := ⟨.fin, .dash⟩ } := by
  have hout : s.op ∉ [Op.readId, .read, .fastRead] := by
    rw [ho]
    cases o <;> simp_all [Op.gated]
  exact s.raise_of_no_output r hout

@[simp] theorem State.window_op (s : State) (evs : List Event) (n : Nat) (b : Sub) : (s.window evs n b).op = s.op := rfl

section TransmitFails

variable {s : State} {i : Instr} {k : ErrKind} (hs : s.pc.stage.hasTxn = true) (hb : s.pc.sub = .sel) (hc : s.Carries i)
  (ha : s.txAnswer = .err k)
include hs hb hc ha

/-- Select and the failing Transmit. -/
theorem iterate_openFail :
    iterate s.op.toInstr 2 s = .next ((s.window [.sel, .tx (frameBytes i) (.err k)] 1 .tx).failCall k) := by
  let opened := s.window [.sel] 0 .tx
  have hsel : exec s.op.toInstr s = .next opened := by
    rw [hc.exec hs, txnStep_sel hs hb]
    rfl
  have htx : exec s.op.toInstr opened = .next (opened.transmit (frameBytes i) (s.respLen i).isSome) := by
    rw [← txnStep_tx (s := opened) hs rfl]
    exact (hc.window [.sel] 0 .tx).exec hs
  rw [iterate_succ hsel, iterate_one, htx, transmit_err (s := opened) ha]
  simp [opened, State.window, State.called, State.emit, State.dropAnswer]

/-- A transaction of a gated operation whose Transmit fails, with either value of `DESELECT_ON_FAIL` (`40_wire_instructions.md` R90). -/
theorem iterate_txnFail (ho : Op.gated s.op = true) :
    iterate s.op.toInstr (txnFailTrace (frameBytes i) k s.cfg.deselectOnFail).length s =
      .next (s.aborted (txnFailTrace (frameBytes i) k s.cfg.deselectOnFail) 1 k) := by
  let evs : List Event := [.sel, .tx (frameBytes i) (.err k)]
  have hopen : iterate s.op.toInstr 2 s = .next ((s.window evs 1 .tx).failCall k) := iterate_openFail hs hb hc ha
  cases hd : s.cfg.deselectOnFail with
  | false =>
    rw [failCall_aborting (s := s.window evs 1 .tx) hd, raise_of_gated ho (s.window_op evs 1 .tx)] at hopen
    refine hopen.trans (congrArg _ ?_)
    simp [evs, State.window, State.aborted, State.called, txnFailTrace, hd]
  | true =>
    let u := { s with pending := translate k }
    let closed := u.between (evs ++ [.desel]) 1 s.pc.stage .desel
    have hclose : (s.window evs 1 .tx).failCall k = u.window evs 1 .desel := failCall_deselecting (s := s.window evs 1 .tx) hd k
    have hdesel : exec s.op.toInstr (u.window evs 1 .desel) = .next (closed.raise (translate k)) := by
      have hcall : exec s.op.toInstr (u.window evs 1 .desel) = afterTxn (u.window evs 1 .desel).deselect := by
        rw [← txnStep_desel (s := u.window evs 1 .desel) hs rfl]
        exact State.Carries.exec (s := u.window evs 1 .desel) ⟨hc.frame, hc.decodes, hc.fits⟩ hs
      have hclosed : (u.window evs 1 .desel).deselect = closed := by
        simp [closed, u, State.window, State.between, State.called, State.deselect, State.emit, Device.play_append]
      rw [hcall, hclosed]
      exact if_pos (translate_ne_ok k)
    have hop : closed.op = s.op := u.between_op (evs ++ [.desel]) 1 s.pc.stage .desel
    rw [hclose] at hopen
    refine (iterate_add 2 1 hopen).trans ?_
    rw [iterate_one, hdesel, raise_of_gated ho hop]
    simp [closed, u, evs, State.between, State.aborted, State.called, txnFailTrace, hd]

end TransmitFails

/-! The gated mutation up to each of its Transmits. -/

/-- As many steps as there are events, first those of `xs`. -/
theorem iterate_length_append {i : Instr} {s t : State} {xs : List Event} (h : iterate i xs.length s = .next t) (ys : List Event) :
    iterate i (xs ++ ys).length s = iterate i ys.length t := by
  rw [List.length_append, iterate_add _ _ h]

section Gate

variable {s : State} {i : Instr} {d : DelayParam} (hpc : s.pc = ⟨.en, .sel⟩) (hp : s.pending = .ok)
include hpc hp

/-- The enable step. -/
theorem iterate_enable (ha : s.txAnswer = .ok) :
    iterate s.op.toInstr 3 s = .next (s.between (txnTrace [Opcode.wren]) 1 .mut .sel) := by
  rw [iterate_txn (by rw [hpc]; rfl) (by rw [hpc]) (carries_wren (by rw [hpc])) ha rfl, hpc]
  exact afterTxn_enable hp _ 1

variable (ho : Op.gated s.op = true) (hd : delayOf s.op = some d) (hc : (s.goto .mut .sel).Carries i) (hr : s.respLen i = none)
include ho hd hc hr

/-- The enable step, the mutation and the delay. -/
theorem iterate_mutation (ha : ∀ a ∈ s.answers.take 2, a.isErr = false) :
    iterate s.op.toInstr 7 s = .next (s.between (txnTrace [Opcode.wren] ++ txnTrace (frameBytes i) ++ [.dly d]) 2 .dis .sel) := by
  have hreset : s.op ≠ .reset := by intro h; rw [h] at ho; cases ho
  let enabled := s.between (txnTrace [Opcode.wren]) 1 .mut .sel
  let sent := s.between (txnTrace [Opcode.wren] ++ txnTrace (frameBytes i)) 2 .dly .dash
  have hmutate : iterate s.op.toInstr 3 enabled = .next sent := by
    have h := iterate_txn (s := enabled) rfl rfl (hc.between _ 1 .sel) (txAnswer_of_take (n := 0) (noErr_drop 1 ha)) hr
    rw [State.between_between] at h
    exact h.trans (afterTxn_mutate hp _ 2)
  rw [iterate_add 3 4 (iterate_enable hpc hp (txAnswer_of_take ha)), iterate_add 3 1 hmutate, iterate_one]
  exact (exec_dly (s := sent) rfl).trans (delayStep_between hd hreset _ 2)

variable {k : ErrKind} {rest : List Answer}

/-- A gated mutation stops at its first failing Transmit (`41_write_gate.md` R107), with either value of `DESELECT_ON_FAIL`. -/
theorem iterate_gateFail {pre : List Answer} (hans : s.answers = pre ++ .err k :: rest) (hpre : ∀ a ∈ pre, a.isErr = false)
    (hlen : pre.length < 3) :
    let evs := gateFailTrace (frameBytes i) d k s.cfg.deselectOnFail pre.length
    iterate s.op.toInstr evs.length s = .next (s.aborted evs (pre.length + 1) k) := by
  have hfails (g : Stage) (evs : List Event) : (s.between evs pre.length g .sel).txAnswer = .err k :=
    txAnswer_of_head (rest := rest) (by simp [hans])
  have hok : ∀ a ∈ s.answers.take pre.length, a.isErr = false := by simpa [hans] using hpre
  match pre, hlen with
  | [], _ =>
    have hfail := iterate_txnFail (i := .wren) (by rw [hpc]; rfl) (by rw [hpc]) (carries_wren (by rw [hpc])) (txAnswer_of_head hans) ho
    exact hfail
  | [a], _ =>
    have henable := iterate_enable hpc hp (txAnswer_of_take (n := 0) hok)
    have hfail := iterate_txnFail (s := s.between (txnTrace [Opcode.wren]) 1 .mut .sel) rfl rfl (hc.between _ 1 .sel)
      (hfails .mut _) ho
    rw [State.between_aborted] at hfail
    exact (iterate_length_append henable _).trans hfail
  | [a, b], _ =>
    have hmutation := iterate_mutation hpc hp ho hd hc hr hok
    have hfail := iterate_txnFail (s := s.between (txnTrace [Opcode.wren] ++ txnTrace (frameBytes i) ++ [.dly d]) 2 .dis .sel)
      rfl rfl (carries_wrdi rfl) (hfails .dis _) ho
    rw [State.between_aborted] at hfail
    exact (iterate_length_append hmutation _).trans hfail

end Gate

/-! The two erases (`43_facade_ops.md` R130, R131). -/

theorem frameBytes_se (a : Nat) : frameBytes (.se (BitVec.ofNat 24 a)) = Opcode.se :: addrBytes a := by
  rw [← addrBytes_ofNat a]
  rfl

theorem carries_se {s : State} (hs : s.pc.stage = .mut) (ho : s.op = .eraseSector) (ha : s.base < s.cfg.totalBytes) (hcfg : s.cfg.wf) :
    s.Carries (.se (BitVec.ofNat 24 s.base)) := by
  obtain ⟨-, hmax, -⟩ := hcfg
  refine ⟨?frame, ?decodes, decide_eq_true ?fits⟩
  case frame => simp [frameBytes_se, State.frame, State.mutFrame, hs, ho]
  case decodes => rw [frameBytes_se, decodeFrame_se]
  case fits => rwa [BitVec.toNat_ofNat, Nat.mod_eq_of_lt (Nat.lt_of_lt_of_le ha hmax)]

theorem carries_ce {s : State} (hs : s.pc.stage = .mut) (ho : s.op = .eraseChip) : s.Carries .ce :=
  ⟨by simp [State.frame, State.mutFrame, hs, ho, frameBytes, encode], rfl, rfl⟩

/-- The state in which the erase `o` accepted in `s` begins its enable step. -/
def State.erasing (s : State) (o : Op) (base : Nat) : State := { s.accepted o with base := base, pc := ⟨.en, .sel⟩ }

theorem iterate_eraseSector_start {s : State} (h : s.ready) (hsect : s.sect < s.cfg.totalSectors) :
    iterate .opEraseSector 2 s = .next (s.erasing .eraseSector (s.sect * 4096)) := by
  have hok : (s.accepted .eraseSector).sectorOk = true := decide_eq_true hsect
  exact iterate_start (o := .eraseSector) h (by decide) (if_pos hok)

theorem iterate_eraseChip_start {s : State} (h : s.ready) : iterate .opEraseChip 2 s = .next (s.erasing .eraseChip s.base) :=
  iterate_start (o := .eraseChip) h (by decide) rfl

section EraseFails

variable {s : State} {pre rest : List Answer} {k : ErrKind} (h : s.ready) (hans : s.answers = pre ++ .err k :: rest)
  (hpre : ∀ a ∈ pre, a.isErr = false) (hlen : pre.length < 3)
include hans hpre hlen

/-- An erase that stops at its first failing Transmit, from its command to the finish. -/
theorem iterate_eraseFail {o : Op} {base : Nat} {i : Instr} {d : DelayParam}
    (hstart : iterate o.toInstr 2 s = .next (s.erasing o base)) (ho : Op.gated o = true) (hd : delayOf o = some d)
    (hc : ((s.erasing o base).goto .mut .sel).Carries i) (hr : s.respLen i = none) :
    let evs := gateFailTrace (frameBytes i) d k s.cfg.deselectOnFail pre.length
    iterate o.toInstr (evs.length + 3) s = .next ((s.erasing o base).aborted evs (pre.length + 1) k).finish := by
  intro evs
  have hgate : iterate o.toInstr evs.length (s.erasing o base) = .next ((s.erasing o base).aborted evs (pre.length + 1) k) :=
    iterate_gateFail (s := s.erasing o base) rfl rfl ho hd hc hr hans hpre hlen
  have hfin : exec o.toInstr ((s.erasing o base).aborted evs (pre.length + 1) k) =
      .next ((s.erasing o base).aborted evs (pre.length + 1) k).finish :=
    exec_fin (s := (s.erasing o base).aborted evs (pre.length + 1) k) rfl
  have hsteps : evs.length + 3 = 2 + (evs.length + 1) := by omega
  rw [hsteps, iterate_add _ _ hstart, iterate_add _ _ hgate, iterate_one, hfin]

include h

theorem iterate_eraseSectorFail (hcfg : s.cfg.wf) (hsect : s.sect < s.cfg.totalSectors) :
    let evs := gateFailTrace (Opcode.se :: addrBytes (s.sect * 4096)) .tSe k s.cfg.deselectOnFail pre.length
    iterate .opEraseSector (evs.length + 3) s =
      .next ((s.erasing .eraseSector (s.sect * 4096)).aborted evs (pre.length + 1) k).finish := by
  have hlt : s.sect * 4096 < s.cfg.totalBytes := Nat.mul_lt_mul_of_pos_right hsect (by decide)
  have hc := carries_se (s := (s.erasing .eraseSector (s.sect * 4096)).goto .mut .sel) rfl rfl hlt hcfg
  have hfail := iterate_eraseFail (o := .eraseSector) hans hpre hlen (iterate_eraseSector_start h hsect) rfl rfl hc rfl
  rwa [frameBytes_se] at hfail

theorem iterate_eraseChipFail :
    let evs := gateFailTrace [Opcode.ce] .tCe k s.cfg.deselectOnFail pre.length
    iterate .opEraseChip (evs.length + 3) s = .next ((s.erasing .eraseChip s.base).aborted evs (pre.length + 1) k).finish :=
  iterate_eraseFail (o := .eraseChip) (i := .ce) hans hpre hlen (iterate_eraseChip_start h) rfl rfl (carries_ce rfl rfl) rfl

end EraseFails

/-- Settles O40: both erases are the gated mutation, between the command and the finish. -/
theorem eraseStopsAtItsFirstFailure : Obligations.EraseStopsAtItsFirstFailure := by
  unfold Obligations.EraseStopsAtItsFirstFailure
  intro s pre k rest h hcfg hans hpre hlen fails
  have hrest : s.answers.drop (pre.length + 1) = rest := by simp [hans]
  refine ⟨fun hsect => ?sector, ?chip⟩
  case sector => exact ⟨_, iterate_eraseSectorFail h hans hpre hlen hcfg hsect, rfl, rfl, rfl, rfl, rfl, rfl, hrest, rfl⟩
  case chip => exact ⟨_, iterate_eraseChipFail h hans hpre hlen, rfl, rfl, rfl, rfl, rfl, rfl, hrest, rfl⟩

/-! The latch after a failed mutation (`41_write_gate.md` R108). -/

/-- A window whose Transmit failed changes neither a stub's latch nor its array (`20_memory.md` R61). -/
theorem play_txnFailTrace_stub {d : Device} (hk : d.kind = .stub) (p : Params) (f : List Byte) (k : ErrKind) (deselect : Bool) :
    (d.play p (txnFailTrace f k deselect)).wel = d.wel ∧ (d.play p (txnFailTrace f k deselect)).flash = d.flash := by
  have hfail : d.startWindow.failTx p f = d.startWindow := failTx_of_ne_general (by simp [hk]) p f
  have hdesel : d.startWindow.endWindow p = d.startWindow.closed := endWindow_stub (d := d.startWindow) hk p
  cases deselect <;> simp [txnFailTrace, Device.onEvent, hfail, hdesel, Device.closed]

/-- Settles O57: the enable step sets the latch, and the failed window leaves it. -/
theorem latchMayBeLeftSet : Obligations.LatchMayBeLeftSet := by
  unfold Obligations.LatchMayBeLeftSet
  intro s a k rest h hd hk ha hans
  let enabled := s.dev.play s.cfg (txnTrace [Opcode.wren])
  have henabled : enabled = { s.dev.startWindow.closed with wel := true } := play_txnTrace_stub hk s.cfg _
  obtain ⟨hwel, hflash⟩ := play_txnFailTrace_stub (d := enabled) (by rw [henabled]; exact hk) s.cfg [Opcode.ce] k true
  have hset : enabled.wel = true := by rw [henabled]
  have hkept : enabled.flash = s.dev.flash := by rw [henabled]; rfl
  have hdev : s.dev.play s.cfg (gateFailTrace [Opcode.ce] .tCe k true 1) = enabled.play s.cfg (txnFailTrace [Opcode.ce] k true) :=
    Device.play_append s.cfg s.dev _ _
  have hrun := iterate_eraseChipFail (pre := [a]) h hans (by simpa using ha) (by simp)
  rw [hd] at hrun
  refine ⟨_, hrun, rfl, rfl, ?latch, ?array⟩
  case latch => exact (congrArg Device.wel hdev).trans (hwel.trans hset)
  case array => exact (congrArg Device.flash hdev).trans (hflash.trans hkept)

end Sys2Proof.Machine

/-! `write` (`42_page_write.md` R110 to R122): whole, at its first failing Transmit, its chunks in closed form, and its trace. -/

namespace Sys2Proof.Machine

/-- Settles O38: the run of a `write` ends in the state that the closed form names. -/
theorem writeSendsItsChunks : Obligations.WriteSendsItsChunks := by
  unfold Obligations.WriteSendsItsChunks
  intro s h hcfg hr hl n ha
  exact iterate_opWrite h hcfg hr hl ha

/-! The first failing Transmit. -/

section WriteFails

variable {s : State} {pre rest : List Answer} {k : ErrKind} (hcfg : s.cfg.wf) (hr : s.start + s.len ≤ s.cfg.totalBytes)
  (hl : s.len ≤ s.src.length) (hpre : ∀ a ∈ pre, a.isErr = false)
include hcfg hr hl hpre

/-- A chunk stops at its first failing Transmit. -/
theorem iterate_chunkFail {j : Nat} (hj : j < chunkCount s.start s.len) (hans : s.answers.drop (3 * j) = pre ++ .err k :: rest)
    (hlen : pre.length < 3) :
    let evs := gateFailTrace (chunkFrame s.src s.start s.len j) .tPp k s.cfg.deselectOnFail pre.length
    iterate .opWrite evs.length (s.atChunk j) = .next ((s.atChunk j).aborted evs (pre.length + 1) k) := by
  obtain ⟨i, hi, hresp, hc⟩ := atChunk_carries hj hcfg hr hl
  rw [← hi]
  exact iterate_gateFail (s := s.atChunk j) rfl rfl rfl rfl hc hresp hans hpre hlen

/-- A `write` stops at its first failing Transmit, from its command to the finish (`42_page_write.md` R116). -/
theorem iterate_writeFail (h : s.ready) (hans : s.answers = pre ++ .err k :: rest)
    (hlen : pre.length < 3 * chunkCount s.start s.len) :
    let j := pre.length / 3
    let evs := gateFailTrace (chunkFrame s.src s.start s.len j) .tPp k s.cfg.deselectOnFail (pre.length % 3)
    iterate .opWrite (10 * j + evs.length + 3) s = .next ((s.atChunk j).aborted evs (pre.length % 3 + 1) k).finish := by
  intro j evs
  have hj : j < chunkCount s.start s.len := Nat.div_lt_of_lt_mul hlen
  have hle : 3 * j ≤ pre.length := Nat.mul_div_le pre.length 3
  have hmod : (pre.drop (3 * j)).length = pre.length % 3 := by
    rw [List.length_drop]
    omega
  have hto : iterate .opWrite (2 + 10 * j) s = .next (s.atChunk j) :=
    iterate_toChunk h hcfg hr hl j hj fun a ha => by
      rw [hans, List.take_append_of_le_length hle] at ha
      exact hpre a (List.mem_of_mem_take ha)
  have hfail : iterate .opWrite evs.length (s.atChunk j) = .next ((s.atChunk j).aborted evs (pre.length % 3 + 1) k) := by
    have hlast := iterate_chunkFail (pre := pre.drop (3 * j)) (k := k) (rest := rest) hcfg hr hl
      (fun a ha => hpre a (List.mem_of_mem_drop ha)) hj (by rw [hans, List.drop_append_of_le_length hle]) (by omega)
    rwa [hmod] at hlast
  have hfin : exec .opWrite ((s.atChunk j).aborted evs (pre.length % 3 + 1) k) =
      .next ((s.atChunk j).aborted evs (pre.length % 3 + 1) k).finish :=
    exec_fin (s := (s.atChunk j).aborted evs (pre.length % 3 + 1) k) rfl
  have hsteps : 10 * j + evs.length + 3 = 2 + 10 * j + (evs.length + 1) := by omega
  rw [hsteps, iterate_add _ _ hto, iterate_add _ _ hfail, iterate_one, hfin]

end WriteFails

/-- Settles O39: the earlier chunks whole, the failing one as a gated mutation that fails, and the finish. -/
theorem writeStopsAtItsFirstFailure : Obligations.WriteStopsAtItsFirstFailure := by
  unfold Obligations.WriteStopsAtItsFirstFailure
  intro s pre k rest h hcfg hr hl hans hpre hlen j last evs
  have hrest : (s.answers.drop (3 * j)).drop (pre.length % 3 + 1) = rest := by
    have hused : 3 * j + (pre.length % 3 + 1) = pre.length + 1 := by omega
    rw [List.drop_drop, hused, hans]
    simp
  have htrace : s.trace ++ chunksTrace s.src s.start s.len j ++ last = s.trace ++ evs := List.append_assoc _ _ _
  have hdev : (s.dev.play s.cfg (chunksTrace s.src s.start s.len j)).play s.cfg last = s.dev.play s.cfg evs :=
    (Device.play_append s.cfg s.dev _ _).symm
  exact ⟨_, iterate_writeFail hcfg hr hl hpre h hans hlen, rfl, rfl, rfl, rfl, htrace, hdev, hrest, rfl, rfl⟩

/-! The splitter's closed form. -/

/-- The chunks before chunk `j` reach to where it begins, and all of them to the end of the request. -/
theorem base_add_sum_chunkLen {base len : Nat} (j : Nat) (hj : j ≤ chunkCount base len) :
    base + ((List.range j).map (chunkLen base len)).sum = min (chunkAddr base j) (base + len) := by
  induction j with
  | zero => simp
  | succ j ih =>
    have hlt := (lt_chunkCount_iff base len j).1 hj
    have hsum := ih (Nat.le_of_lt hj)
    have hend := chunkAddr_add_chunkLen (show j < chunkCount base len from hj)
    rw [List.range_succ, List.map_append, List.sum_append, List.map_singleton, List.sum_singleton]
    omega

/-- Settles O41: each chunk ends where the next begins, and no chunk begins after the last one. -/
theorem chunksTileTheRequest : Obligations.ChunksTileTheRequest := by
  unfold Obligations.ChunksTileTheRequest
  intro base len _
  refine ⟨?sum, chunkAddr_zero base, fun j hj => ?next, fun j hj => ?nonempty⟩
  case sum =>
    have hsum := base_add_sum_chunkLen (chunkCount base len) (Nat.le_refl _)
    have hlast := mt (lt_chunkCount_iff base len (chunkCount base len)).2 (Nat.lt_irrefl _)
    omega
  case next =>
    have hnext := (lt_chunkCount_iff base len (j + 1)).1 hj
    have hend := chunkAddr_add_chunkLen (Nat.lt_of_succ_lt hj)
    omega
  case nonempty =>
    obtain ⟨hpos, -⟩ := chunk_in_page hj
    exact hpos

/-- Settles O42: a request inside one page has a chunk 0 and ends before the page that a chunk 1 would begin. -/
theorem chunksStayInTheirPage : Obligations.ChunksStayInTheirPage := by
  unfold Obligations.ChunksStayInTheirPage
  refine ⟨fun base len j hj => ?inPage, fun base len hlen hpage => ?onePage⟩
  case inPage =>
    obtain ⟨-, hpage⟩ := chunk_in_page hj
    exact ⟨hpage, by omega⟩
  case onePage =>
    have hfirst := lt_chunkCount_iff base len 0
    have hsecond := lt_chunkCount_iff base len 1
    rw [chunkAddr_zero] at hfirst
    rw [chunkAddr_succ] at hsecond
    omega

/-! The shape of the trace. -/

theorem delayTotal_append (xs ys : List Event) : delayTotal (xs ++ ys) = delayTotal xs + delayTotal ys := by
  induction xs with
  | nil => exact (Nat.zero_add _).symm
  | cons e xs ih => cases e <;> simp [delayTotal, ih, Nat.add_assoc]

/-- What adds up along a trace and is `c` in the trace of each gated chunk is `n * c` in that of `n` chunks. -/
theorem chunksTrace_measure {f : List Event → Nat} {c : Nat} (hadd : ∀ xs ys, f (xs ++ ys) = f xs + f ys)
    (hgate : ∀ frame, f (gateTrace frame .tPp) = c) (src : List Byte) (base len n : Nat) :
    f (chunksTrace src base len n) = n * c := by
  induction n with
  | zero =>
    have hnil : f [] = f [] + f [] := hadd [] []
    rw [Nat.zero_mul]
    exact Nat.left_eq_add.1 hnil
  | succ n ih => rw [chunksTrace_succ, hadd, ih, hgate, Nat.succ_mul]

/-- Settles O43: each of the numbers adds up over the chunks. -/
theorem writeTraceHasItsShape : Obligations.WriteTraceHasItsShape := by
  unfold Obligations.WriteTraceHasItsShape
  intro src base len n evs
  have hcount (e : Event) {c : Nat} (hgate : ∀ frame, (gateTrace frame .tPp).count e = c) : evs.count e = n * c :=
    chunksTrace_measure (fun _ _ => List.count_append) hgate src base len n
  refine ⟨?length, ?sel, ?desel, ?delays, fun m a => ?noRx, ?tx, ?milliseconds⟩
  case length => exact (chunksTrace_measure (fun _ _ => List.length_append) (fun _ => rfl) src base len n).trans (Nat.mul_comm n 10)
  case sel => exact (hcount .sel fun _ => rfl).trans (Nat.mul_comm n 3)
  case desel => exact (hcount .desel fun _ => rfl).trans (Nat.mul_comm n 3)
  case delays => exact (hcount (.dly .tPp) fun _ => rfl).trans (Nat.mul_one n)
  case noRx => exact List.count_eq_zero.1 (hcount (.rx m a) fun _ => rfl)
  case tx =>
    rw [Nat.mul_comm]
    exact chunksTrace_measure (f := fun evs => (evs.filter _).length) (fun _ _ => by simp) (fun _ => rfl) src base len n
  case milliseconds => exact chunksTrace_measure delayTotal_append (fun _ => rfl) src base len n

end Sys2Proof.Machine

/-! The other facade operations whole, from acceptance to return (`43_facade_ops.md` R125 to R131). -/

namespace Sys2Proof.Machine

/-! The finish of an operation. -/

/-- At `(FIN,-)` one more step ends the operation. -/
theorem iterate_finish {o : Op} {s t : State} {k : Nat} (hrun : iterate o.toInstr k s = .next t) (ho : t.op = o)
    (hfin : t.pc.stage = .fin) : iterate o.toInstr (k + 1) s = .next t.finish := by
  rw [iterate_add _ _ hrun, iterate_one, ← ho, exec_fin hfin]

theorem finish_complete_between (s : State) (evs : List Event) (n : Nat) (g : Stage) (b : Sub) :
    (s.between evs n g b).complete.finish = s.afterOp s.op .ok evs n := by
  simp [State.finish, State.complete, State.between, State.called, State.markFinished, State.goto, State.afterOp]

/-- An operation that returns `Ok` after the calls `evs`, with the registers that it wrote as in `u`. -/
theorem iterate_returnOk {o : Op} {s u : State} {k n : Nat} {evs : List Event} {g : Stage} {b : Sub}
    (hrun : iterate o.toInstr k s = .next (u.between evs n g b).complete) (ho : u.op = o) :
    iterate o.toInstr (k + 1) s = .next (u.afterOp o .ok evs n) := by
  rw [iterate_finish hrun ho rfl, finish_complete_between, ho]

/-! `init` (R125). -/

/-- Settles O31: an unbound machine accepts `init`, whose check sets the session and completes without a call. -/
theorem initBindsTheSession : Obligations.InitBindsTheSession := by
  unfold Obligations.InitBindsTheSession
  intro s hpc hbusy hbound
  let session := { s.accepted .init with pinmap := s.pinIn, bound := true }
  have haccept : exec .opInit s = .next (s.accepted .init) :=
    (exec_idle (by rw [hpc]) .init).trans (accept_next hbusy (by simp [hbound]))
  have hcheck : exec .opInit (s.accepted .init) = .next session.complete := exec_chk (s := s.accepted .init) rfl
  have hrun : iterate .opInit 2 s = .next session.complete := by rw [iterate_succ haccept, iterate_one, hcheck]
  refine (iterate_finish (o := .init) hrun rfl rfl).trans (congrArg _ ?_)
  simp [session, State.accepted, State.markAccepted, State.complete, State.finish, State.markFinished, State.goto, State.afterOp]

/-! `reset` (R126). -/

/-- In its transaction `reset` makes the step of its frame, whichever of the two rows the call belongs to (log 2). -/
theorem exec_opReset_xfer {s : State} (hs : s.pc.stage = .xfer) (ho : s.op = .reset) : exec .opReset s = exec .rsten s := by
  have hwire : exec s.op.toInstr s = exec (if s.pc.sub = .sel then .rsten else .rst) s :=
    (exec_txn (by rw [hs]; rfl)).trans (wireStep_eq (wireInstr_reset hs ho))
  rw [ho] at hwire
  refine hwire.trans ?_
  split <;> rfl

/-- The transaction of `reset` is that of its wire instruction. -/
theorem iterate_opReset_txn {s : State} (hpc : s.pc = ⟨.xfer, .sel⟩) (ho : s.op = .reset) (hp : s.pending = .ok)
    (ha : s.txAnswer = .ok) : iterate .opReset 3 s = .next (s.between (txnTrace [0x66, 0x99]) 1 .dly .dash) := by
  have hs : s.pc.stage = .xfer := by rw [hpc]
  have htxn : s.pc.stage.hasTxn = true := by rw [hs]; rfl
  let sent := s.select.transmit (frameBytes .rsten) false
  obtain ⟨hstage, hop⟩ : sent.pc.stage = .xfer ∧ sent.op = .reset := by simp [sent, transmit_ok (s := s.select) ha, hs, ho]
  have hsel : exec .rsten s = .next s.select := exec_select rfl rfl htxn (by rw [hpc])
  have htx : exec .rsten s.select = .next sent := exec_transmit (s := s.select) rfl rfl htxn rfl
  have hwire := resetFrameIsOneTransaction s .rsten (by simp) hpc ho hp ha
  rw [iterate_succ hsel, iterate_succ htx, iterate_one] at hwire
  rw [iterate_succ ((exec_opReset_xfer hs ho).trans hsel), iterate_succ ((exec_opReset_xfer (s := s.select) hs ho).trans htx),
    iterate_one, exec_opReset_xfer hstage hop, hwire, State.between_one]

/-- The recovery delay ends a `reset`. -/
theorem delayStep_reset {s : State} (ho : s.op = .reset) (evs : List Event) (n : Nat) :
    delayStep (s.between evs n .dly .dash) = .next (s.between (evs ++ [.dly .tRst]) n .dly .dash).complete := by
  have hd : delayOf s.op = some .tRst := by rw [ho]; rfl
  rw [delayStep_eq (s := s.between evs n .dly .dash) hd, State.between_op, if_pos ho]
  simp [State.between, State.called, State.delay, State.emit, State.complete, Device.play_append]

/-- Settles O32: the command, the transaction of the reset frame, the delay, and the finish. -/
theorem resetSendsOneFrameAndWaits : Obligations.ResetSendsOneFrameAndWaits := by
  unfold Obligations.ResetSendsOneFrameAndWaits
  intro s h ha
  let begun := (s.accepted .reset).goto .xfer .sel
  let sent := begun.between (txnTrace [0x66, 0x99]) 1 .dly .dash
  have hstart : iterate .opReset 2 s = .next begun := iterate_start (o := .reset) h (by decide) rfl
  have htxn : iterate .opReset 3 begun = .next sent := iterate_opReset_txn rfl rfl rfl ha
  have hrun : iterate .opReset 6 s = .next (begun.between (txnTrace [0x66, 0x99] ++ [.dly .tRst]) 1 .dly .dash).complete := by
    rw [iterate_add 2 4 hstart, iterate_add 3 1 htxn, iterate_one]
    exact (exec_dly (s := sent) rfl).trans (delayStep_reset rfl _ 1)
  refine (iterate_returnOk (o := .reset) hrun rfl).trans (congrArg _ ?_)
  simp [begun, State.accepted, State.markAccepted, State.goto, State.afterOp]

/-! `read_id` (R127). -/

theorem carries_rdid {s : State} (hs : s.pc.stage = .xfer) (ho : s.op = .readId) : s.Carries .rdid :=
  ⟨by simp [State.frame, State.xferFrame, hs, ho, frameBytes, encode], rfl, rfl⟩

/-- The state of the `read_id` accepted in `s` at the end of its transaction, with the response received. -/
def State.identified (s : State) (bytes : List Byte) : State :=
  { s.accepted .readId with resp := bytes }.between (rxnTrace [Opcode.rdid] bytes) 2 .xfer .desel

/-- `read_id` from its command to the end of its transaction, whose calls answer `ok`. -/
theorem iterate_opReadId {s : State} {bytes : List Byte} (h : s.ready) (ha : s.txAnswer = .ok)
    (hbytes : (s.called [.sel, .tx [Opcode.rdid] .ok] 1).rxAnswer Config.idBytes = .ok bytes) :
    iterate .opReadId 6 s = .next (s.identified bytes).endReadId := by
  let begun := (s.accepted .readId).goto .xfer .sel
  have hstart : iterate .opReadId 2 s = .next begun := iterate_start (o := .readId) h (by decide) rfl
  have htxn : iterate .opReadId 4 begun = afterTxn (s.identified bytes) :=
    iterate_rxn (s := begun) rfl rfl (carries_rdid rfl rfl) ha rfl hbytes
  rw [iterate_add 2 4 hstart, htxn]
  exact afterTxn_readId (s := { s.accepted .readId with resp := bytes }) rfl _ 2 rfl

/-- Settles O33: the three bytes make a nonzero identifier, which the end of `read_id` keeps. -/
theorem readIdReturnsTheIdentifier : Obligations.ReadIdReturnsTheIdentifier := by
  unfold Obligations.ReadIdReturnsTheIdentifier
  intro s a b2 b1 b0 rest h ha hans hv
  have htx : s.txAnswer = .ok := txAnswer_of_take (n := 0) (by simp [hans, ha])
  have hrx : (s.called [.sel, .tx [Opcode.rdid] .ok] 1).rxAnswer Config.idBytes = .ok [b2, b1, b0] :=
    rxAnswer_data (rest := rest) (by simp [State.called, hans]) rfl
  have hid : idOfBytes (s.identified [b2, b1, b0]).resp ≠ 0 := mt (addrOfBytes_eq_zero_iff b2 b1 b0).1 hv
  let kept := { s.accepted .readId with resp := [b2, b1, b0], id := addrOfBytes b2 b1 b0 }
  have hrun : iterate .opReadId 6 s = .next (kept.between (rxnTrace [Opcode.rdid] [b2, b1, b0]) 2 .xfer .desel).complete := by
    rw [iterate_opReadId h htx hrx, State.endReadId, if_neg hid]
    rfl
  refine (iterate_returnOk (o := .readId) hrun rfl).trans (congrArg _ ?_)
  simp [kept, State.accepted, State.markAccepted, State.afterOp, addrOfBytes, addrValue]

/-- Without a device every received byte is zero (`20_memory.md` R63). -/
theorem rxAnswer_absent {s : State} (hk : s.dev.kind = .absent) (hans : s.answers = []) (n : Nat) :
    s.rxAnswer n = .ok (List.replicate n 0x00) := by
  simp [State.rxAnswer, Device.respond, hans, hk]

/-- Settles O34: the three zero bytes of the absent device make the identifier zero, which the end of `read_id` raises. -/
theorem readIdWithoutDeviceIsNoResponse : Obligations.ReadIdWithoutDeviceIsNoResponse := by
  unfold Obligations.ReadIdWithoutDeviceIsNoResponse
  intro s h hans hk
  let received := s.identified [0x00, 0x00, 0x00]
  have htx : s.txAnswer = .ok := txAnswer_of_noErr (by simp [hans])
  have hrx : (s.called [.sel, .tx [Opcode.rdid] .ok] 1).rxAnswer Config.idBytes = .ok [0x00, 0x00, 0x00] :=
    rxAnswer_absent (by simp [State.called, hk]) (by simp [State.called, hans]) 3
  have hid : idOfBytes received.resp = 0 := (addrOfBytes_eq_zero_iff 0 0 0).2 rfl
  have hrun : iterate .opReadId 6 s = .next (received.raise .noResponse) := by
    rw [iterate_opReadId h htx hrx, State.endReadId, if_pos hid]
  refine ⟨_, iterate_finish (o := .readId) hrun (received.raise_op .noResponse) rfl, ?_⟩
  simp [State.finish, State.markFinished, received, State.identified, State.between, State.called, State.accepted, State.markAccepted]

/-! `read` and `fast_read` (R128, R129). -/

theorem frameBytes_fread (a : Nat) (dummy : Byte) :
    frameBytes (.fread (BitVec.ofNat 24 a) dummy) = Opcode.fread :: (addrBytes a ++ [dummy]) := by
  rw [← addrBytes_ofNat a]
  rfl

theorem carries_fread {s : State} (hs : s.pc.stage = .xfer) (ho : s.op = .fastRead) :
    s.Carries (.fread (BitVec.ofNat 24 s.base) s.cfg.dummy) := by
  refine ⟨?frame, ?decodes, rfl⟩ <;> rw [frameBytes_fread]
  case frame => simp [State.frame, State.xferFrame, hs, ho]
  case decodes => exact decodeFrame_fread s.base s.cfg.dummy

theorem endRead_between (s : State) (evs : List Event) (n : Nat) (g : Stage) (b : Sub) :
    (s.between evs n g b).endRead = ({ s with dst := s.resp ++ s.dst.drop s.resp.length }.between evs n g b).complete := rfl

/-- A `fast_read` whose calls answer `ok`, from its command to the finish. -/
theorem iterate_opFastRead {s : State} {bytes : List Byte} (h : s.ready) (hr : s.start + s.len ≤ s.cfg.totalBytes)
    (hl : s.len ≤ s.dst.length) (ha : s.txAnswer = .ok)
    (hbytes : (s.called [.sel, .tx (Opcode.fread :: (addrBytes s.start ++ [s.cfg.dummy])) .ok] 1).rxAnswer s.len = .ok bytes) :
    iterate .opFastRead 7 s =
      .next { s.afterOp .fastRead .ok (rxnTrace (Opcode.fread :: (addrBytes s.start ++ [s.cfg.dummy])) bytes) 2 with
        base := s.start, resp := bytes, dst := bytes ++ s.dst.drop s.len } := by
  let begun : State := { s.accepted .fastRead with base := s.start, pc := ⟨.xfer, .sel⟩ }
  have hstart : iterate .opFastRead 2 s = .next begun := by
    have hrange : (s.accepted .fastRead).rangeOk = true := decide_eq_true hr
    have hdst : (s.accepted .fastRead).len ≤ (s.accepted .fastRead).dst.length := hl
    refine iterate_start (o := .fastRead) h (by decide) ?_
    rw [opCheck, checkRead, if_pos hrange, if_pos hdst]
    rfl
  have htxn := iterate_rxn (s := begun) (n := s.len) rfl rfl (carries_fread rfl rfl) ha rfl (bytes := bytes)
    (by rw [frameBytes_fread]; exact hbytes)
  rw [frameBytes_fread] at htxn
  have hend := htxn.trans (afterTxn_read (s := { begun with resp := bytes }) rfl _ 2 (.inr rfl))
  rw [endRead_between] at hend
  refine (iterate_returnOk (o := .fastRead) ((iterate_add 2 4 hstart).trans hend) rfl).trans (congrArg _ ?_)
  simp [begun, State.accepted, State.markAccepted, State.afterOp, rxAnswer_length hbytes]

/-- Settles O35: the environment's bytes are the response in either transaction. -/
theorem readsFillTheDestination : Obligations.ReadsFillTheDestination := by
  unfold Obligations.ReadsFillTheDestination
  intro s a bytes rest h ha hans hlen hdst hr
  have htx : s.txAnswer = .ok := txAnswer_of_take (n := 0) (by simp [hans, ha])
  have hrx (f : List Byte) : (s.called [.sel, .tx f .ok] 1).rxAnswer s.len = .ok bytes :=
    rxAnswer_data (rest := rest) (by simp [State.called, hans]) hlen
  exact ⟨iterate_opRead h hr hdst htx (hrx _), iterate_opFastRead h hr hdst htx (hrx _)⟩

/-! `erase_sector` and `erase_chip` (R130, R131). -/

/-- The disable step ends an erase. -/
theorem afterDisable_erase {s : State} (ho : s.op = .eraseSector ∨ s.op = .eraseChip) : afterDisable s = .next s.complete := by
  obtain ho | ho := ho <;> simp [afterDisable, ho]

/-- An erase whose calls all answer `ok`, from its command to the finish (`41_write_gate.md` R107). -/
theorem iterate_erase {s : State} {o : Op} {base : Nat} {i : Instr} {d : DelayParam}
    (hstart : iterate o.toInstr 2 s = .next (s.erasing o base)) (ho : o = .eraseSector ∨ o = .eraseChip) (hd : delayOf o = some d)
    (hc : ((s.erasing o base).goto .mut .sel).Carries i) (hr : s.respLen i = none) (ha : ∀ a ∈ s.answers.take 3, a.isErr = false) :
    iterate o.toInstr 13 s = .next { s.afterOp o .ok (gateTrace (frameBytes i) d) 3 with base := base } := by
  let erased := (s.erasing o base).between (gateTrace (frameBytes i) d) 3 .dis .desel
  have hreset : o ≠ .reset := by rintro rfl; simp at ho
  have hgate : iterate o.toInstr 10 (s.erasing o base) = .next erased.complete :=
    (iterate_gate (s := s.erasing o base) rfl rfl hd hreset hc hr ha).trans (afterDisable_erase (s := erased) ho)
  refine (iterate_returnOk ((iterate_add 2 10 hstart).trans hgate) rfl).trans (congrArg _ ?_)
  simp [State.erasing, State.accepted, State.markAccepted, State.afterOp]

/-- Settles O36: the sector exists, so the mutating stage carries the `SE` at its first address. -/
theorem eraseSectorRunsTheGate : Obligations.EraseSectorRunsTheGate := by
  unfold Obligations.EraseSectorRunsTheGate
  intro s h hcfg hsect ha
  have hlt : s.sect * 4096 < s.cfg.totalBytes := Nat.mul_lt_mul_of_pos_right hsect (by decide)
  have hc := carries_se (s := (s.erasing .eraseSector (s.sect * 4096)).goto .mut .sel) rfl rfl hlt hcfg
  have hrun := iterate_erase (o := .eraseSector) (iterate_eraseSector_start h hsect) (.inl rfl) rfl hc rfl ha
  rwa [frameBytes_se] at hrun

/-- Settles O37: the gate runs around a `CE`, and `BASE` keeps its value, since a chip erase has no address. -/
theorem eraseChipRunsTheGate : Obligations.EraseChipRunsTheGate := by
  unfold Obligations.EraseChipRunsTheGate
  intro s h ha
  exact iterate_erase (o := .eraseChip) (i := .ce) (iterate_eraseChip_start h) (.inr rfl) rfl (carries_ce rfl rfl) rfl ha

end Sys2Proof.Machine

/-! Exceptions and refusals (`60_exceptions.md`): the range checks of `CHK`, failed calls, the abort, unaccepted commands, the delay. -/

namespace Sys2Proof.Machine

/-! The table of `OutOfRange` (R143). -/

/-- The conditions of the table: the request's range for `write`, `read` and `fast_read`, the sector index for `erase_sector`. -/
abbrev State.outOfTable (s : State) : Prop :=
  (s.op ∈ [Op.write, .read, .fastRead] ∧ s.page * 256 + s.offs + s.len > s.cfg.totalBytes) ∨
    (s.op = .eraseSector ∧ s.sect ≥ s.cfg.totalSectors)

theorem rangeOk_eq_false_iff (s : State) : s.rangeOk = false ↔ s.page * 256 + s.offs + s.len > s.cfg.totalBytes :=
  decide_eq_false_iff_not.trans Nat.not_le

theorem sectorOk_eq_false_iff (s : State) : s.sectorOk = false ↔ s.sect ≥ s.cfg.totalSectors :=
  decide_eq_false_iff_not.trans Nat.not_lt

/-- A condition of the table aborts the operation at its check. -/
theorem opCheck_raises {s : State} (h : s.outOfTable) : opCheck s.op s = .next (s.raise .outOfRange) := by
  obtain ⟨ho, hrange⟩ | ⟨ho, hsect⟩ := h
  · rw [← rangeOk_eq_false_iff] at hrange
    simp only [List.mem_cons, List.not_mem_nil, or_false] at ho
    obtain ho | ho | ho := ho <;> simp [ho, opCheck, checkWrite, checkRead, hrange]
  · rw [← sectorOk_eq_false_iff] at hsect
    simp [ho, opCheck, checkEraseSector, hsect]

/-- The loop test of `write` leaves no failure pending where there was none. -/
theorem loopTest_pending_ok {s : State} (hp : s.pending = .ok) : s.loopTest.pending = .ok := by
  obtain ⟨-, h⟩ | h := loopTest_cases s <;> rw [h]
  · exact hp
  · rfl

/-- A check outside the table leaves no failure pending. -/
theorem opCheck_pending_ok {s t : State} (h : ¬s.outOfTable) (hp : s.pending = .ok) (ht : opCheck s.op s = .next t) :
    t.pending = .ok := by
  rw [State.outOfTable, ← rangeOk_eq_false_iff, ← sectorOk_eq_false_iff] at h
  cases ho : s.op <;> rw [ho] at ht
  case reset | readId | eraseChip => cases ht; exact hp
  case init => cases ht; rfl
  case read | fastRead =>
    obtain ⟨-, -, rfl⟩ | ⟨hrange, -⟩ := checkRead_cases ht
    · exact hp
    · exact absurd (.inl ⟨by simp [ho], hrange⟩) h
  case eraseSector =>
    obtain ⟨-, rfl⟩ | ⟨hsect, -⟩ := checkEraseSector_cases ht
    · exact hp
    · exact absurd (.inr ⟨ho, hsect⟩) h
  case write =>
    obtain ⟨-, -, rfl⟩ | ⟨hrange, -⟩ := checkWrite_cases ht
    · exact loopTest_pending_ok hp
    · exact absurd (.inl ⟨by simp [ho], hrange⟩) h

/-- Settles O15: the check is `opCheck`, and an abort there spoils no `ID`, since `read_id` is not in the table. -/
theorem outOfRangeIsRaisedExactlyByTheTable : Obligations.OutOfRangeIsRaisedExactlyByTheTable := by
  unfold Obligations.OutOfRangeIsRaisedExactlyByTheTable
  intro s hs hp cond
  rw [exec_chk hs]
  refine ⟨fun h => ⟨_, opCheck_raises h, ?_⟩, fun h t ht => opCheck_pending_ok h hp ht⟩
  have hid : s.op ≠ .readId := by
    intro ho
    simp [cond, ho] at h
  simp [s.raise_id hid]

/-! Failed calls (R142) and the abort (R147, R148). -/

/-- A failed call leaves its translated error pending, with either value of `DESELECT_ON_FAIL`. -/
@[simp] theorem failCall_pending (s : State) (k : ErrKind) : (s.failCall k).pending = translate k := by
  obtain h | ⟨-, h⟩ := failCall_cases s k <;> rw [h]
  exact s.raise_pending _

/-- Settles O21: a coming error is the answer to a Transmit as to a Receive, and both go on as a failed call. -/
theorem transportErrorsAreTranslated : Obligations.TransportErrorsAreTranslated := by
  unfold Obligations.TransportErrorsAreTranslated
  intro i s k rest hw hf hs hans hb
  have hcall : ∃ t, exec i s = .next t ∧ t.pending = translate k := by
    obtain hb | ⟨hb, hresp⟩ := hb
    · rw [exec_transmit hw hf hs hb, transmit_err (txAnswer_of_head hans)]
      exact ⟨_, rfl, failCall_pending _ k⟩
    · obtain ⟨n, hn⟩ := Option.isSome_iff_exists.1 hresp
      have herr : s.rxAnswer n = .err k := (rxAnswer_eq_err_iff s n k).2 (by rw [hans]; rfl)
      rw [exec_receive hw hf hs hb hn, receive_err herr]
      exact ⟨_, rfl, failCall_pending _ k⟩
  obtain ⟨t, ht, hpending⟩ := hcall
  refine ⟨t, ht, ?_⟩
  rw [hpending]
  cases k <;> simp [translate]

/-- With a failure pending the operation is aborted after the Deselect. -/
theorem afterTxn_raise {s : State} (hp : s.pending ≠ .ok) : afterTxn s = .next (s.raise s.pending) := if_pos hp

/-- Settles O22: what follows the Deselect is the abort, which keeps all but the outputs. -/
theorem failedTransactionAborts : Obligations.FailedTransactionAborts := by
  unfold Obligations.FailedTransactionAborts
  intro i s hw hf hs hb hp
  rw [exec_deselect hw hf hs hb, afterTxn_raise (s := s.deselect) hp]
  exact ⟨_, rfl, by simp⟩

/-! Commands that are not accepted (R161). -/

theorem accept_busy {s : State} (hb : s.busy = true) (o : Op) : accept o s = .refused .commandWhileBusy := by
  simp [accept, hb]

theorem accept_notInitialised {s : State} {o : Op} (hb : s.busy = false) (hbound : s.bound = false) (ho : o ≠ .init) :
    accept o s = .refused .notInitialised := by
  simp [accept, hb, hbound, ho]

theorem accept_secondInit {s : State} (hb : s.busy = false) (hbound : s.bound = true) : accept .init s = .refused .secondInit := by
  simp [accept, hb, hbound]

/-- A command for another operation than the running one. -/
theorem hostOp_other {s : State} {o : Op} (hs : s.pc.stage ≠ .idle) (ho : s.op ≠ o) (c : State → Res) :
    hostOp o c s = .refused .commandWhileBusy := by
  simp [hostOp, hs, ho]

/-- Settles O13, by what `accept` answers in `IDLE`, and elsewhere by the running operation or by the host's breaking in. -/
theorem unacceptedCommandIsRefused : Obligations.UnacceptedCommandIsRefused := by
  unfold Obligations.UnacceptedCommandIsRefused
  refine ⟨?busy, ?other, ?intruded, ?unbound, ?second⟩
  case busy =>
    intro o s hs hb
    rw [exec_idle hs, accept_busy hb]
  case other =>
    intro o s hs ho
    rw [exec_op, hostOp_other hs ho]
  case intruded =>
    intro s w rest hs hp
    rw [step_intruded hs (intrusion_eq_some hp)]
    rfl
  case unbound =>
    intro o s hs hb hbound ho
    rw [exec_idle hs, accept_notInitialised hb hbound ho]
  case second =>
    intro s hs hb hbound
    exact (exec_idle hs .init).trans (accept_secondInit hb hbound)

/-! The delay (R155). -/

theorem delayStep_ends {s : State} (ho : s.op = .reset) : delayStep s = .next (s.delay .tRst).complete := by
  rw [delayStep_eq (p := .tRst) (by rw [ho]; rfl), if_pos ho]

theorem delayStep_disables {s : State} {p : DelayParam} (hp : delayOf s.op = some p) (ho : s.op ≠ .reset) :
    delayStep s = .next ((s.delay p).goto .dis .sel) := by
  rw [delayStep_eq hp, if_neg ho]

/-- Settles O29: a step in `DLY` is `delayStep`, which ends a `reset` and leads the gated operations to their disable step. -/
theorem delayNamesItsParameter : Obligations.DelayNamesItsParameter := by
  unfold Obligations.DelayNamesItsParameter
  intro s hs waited
  have dly {o : Op} (ho : s.op = o) : exec o.toInstr s = delayStep s := ho ▸ exec_dly hs
  have gated {o : Op} {p : DelayParam} (ho : s.op = o) (hp : delayOf o = some p) (hne : o ≠ .reset) :
      exec o.toInstr s = .next { waited p with pc := ⟨.dis, .sel⟩ } :=
    (dly ho).trans (delayStep_disables (ho ▸ hp) (ho ▸ hne))
  exact ⟨fun ho => (dly ho).trans (delayStep_ends ho), fun ho => gated ho rfl (by decide), fun ho => gated ho rfl (by decide),
    fun ho => gated ho rfl (by decide)⟩

end Sys2Proof.Machine

namespace Sys2Proof.Machine

/-! Power-on reset (R170, R171). -/

theorem State.powerOn_keeps_dev_cfg (s : State) : s.powerOn.dev = s.dev ∧ s.powerOn.cfg = s.cfg := ⟨rfl, rfl⟩

theorem State.powerOn_idle_unbound (s : State) : s.powerOn.pc = ⟨.idle, .dash⟩ ∧ s.powerOn.busy = false ∧ s.powerOn.done = false ∧
    s.powerOn.result = .ok ∧ s.powerOn.bound = false ∧ s.powerOn.selected = false ∧ s.powerOn.trace = [] :=
  ⟨rfl, rfl, rfl, rfl, rfl, rfl, rfl⟩

/-- The machine starts in a state that a power-on reset of the sequencer leaves as it is. -/
theorem State.powerOn_reset : State.reset.powerOn = State.reset := rfl

/-- Settles O59: the machine starts as `powerOn` leaves it, so both parts are what `powerOn` leaves of any state. -/
theorem powerOnResetIsIdleAndUnbound : Obligations.PowerOnResetIsIdleAndUnbound := by
  unfold Obligations.PowerOnResetIsIdleAndUnbound
  refine ⟨?start, ?sequencer⟩
  case start => exact State.powerOn_reset ▸ State.powerOn_idle_unbound State.reset
  case sequencer =>
    intro s
    obtain ⟨hdev, hcfg⟩ := s.powerOn_keeps_dev_cfg
    exact ⟨hdev, hcfg, s.powerOn_idle_unbound⟩

end Sys2Proof.Machine
